-- ==== Sys2Proof/Word.lean ====
section
/-! DEFINITION. The two word types of the 740 Family CPU: an 8-bit byte, which is the addressable unit and the
width of every data register, and a 16-bit address, which is the width of the program counter (R12, R13, R60). -/

namespace Sys2Proof

/-- An 8-bit value: a data register, a memory byte, an instruction byte (R12, R13). -/
abbrev Byte := BitVec 8

/-- A 16-bit value: the program counter, an address of the 64-Kbyte space (R12, R24, R60). -/
abbrev Addr := BitVec 16

end Sys2Proof
end

