-- ==== Sys2Proof/Machine/Bits.lean ====
section
/-! DEFINITION. The bit and byte helpers of the rules: joining and splitting 16-bit values, the extensions `zext_16`
and `sext_16` (R13), single bits of a byte, and the exchange of a byte's two halves. -/

namespace Sys2Proof.Machine

open Sys2Proof

/-- `hi:lo`, the 16-bit value with high byte `hi` and low byte `lo` (R13). -/
def join (hi lo : Byte) : Addr := hi ++ lo

/-- The high byte of a 16-bit value (R13). -/
def hiByte (w : Addr) : Byte := w.extractLsb' 8 8

/-- The low byte of a 16-bit value (R13). -/
def loByte (w : Addr) : Byte := w.extractLsb' 0 8

/-- `zext_16(b)` (R13). -/
def zext16 (b : Byte) : Addr := b.setWidth 16

/-- `sext_16(b)` (R13). -/
def sext16 (b : Byte) : Addr := b.signExtend 16

/-- The zero page address `0x00:z` (R61). -/
def zpAddr (z : Byte) : Addr := join 0x00 z

/-- The byte whose only set bit is bit `i`. -/
def bitMask (i : Nat) : Byte := 1#8 <<< i

/-- The byte `v` with bit `i` written (bit 0 least significant). -/
def withBit (v : Byte) (i : Nat) (b : Bool) : Byte :=
  if b then v ||| bitMask i else v &&& ~~~ bitMask i

/-- The byte with its two four-bit halves exchanged, `v[3:0] : v[7:4]` (R215). -/
def swapHalves (v : Byte) : Byte := v.extractLsb' 0 4 ++ v.extractLsb' 4 4

end Sys2Proof.Machine
end

