-- ==== Sys2Proof/Config.lean ====
section
/-! DEFINITION. What the manual leaves to the product, as plain data (the parameters of `00_scope.md` R5 to R11, and
the two open parameters of R319 and R327), and the free values: constants without a body, so that nothing about the
value they give can be proved. The product's parameters stand in `State` as the field `cfg` (log entry 1): a
statement about every state is therefore a statement about every product. -/

namespace Sys2Proof.Config

open Sys2Proof

/-- What an address of the memory space holds on a product (R11, R71). -/
inductive MemClass where
  /-- Reads and writes the stored byte. -/
  | ram
  /-- Reads the stored byte; a write changes nothing (R73). -/
  | rom
  /-- A device register: a read gives what the device presents (R72). -/
  | sfr
  /-- Nothing there: a read gives an arbitrary byte, a write changes nothing (R73). -/
  | unmapped
  deriving DecidableEq, Repr

/-- A range of addresses of one class; the first region that holds an address decides (R11). -/
structure Region where
  first : Addr
  last : Addr
  cls : MemClass
  deriving DecidableEq, Repr

/-- The place of one bit in memory: an address and a bit number (R10). -/
structure BitLoc where
  addr : Addr
  bit : Fin 8
  deriving DecidableEq, Repr

/-- One maskable interrupt source of the product (R10). `external` says that its request does not need the clock, so
that it can arrive in the stop state (R326: product data). -/
structure IntSource where
  name : String
  vector : Addr
  request : BitLoc
  enable : BitLoc
  external : Bool
  deriving DecidableEq, Repr

/-- `STACK_PAGE` (R5, R41): a constant page (`false` is `0x00`, `true` is `0x01`), or the stack page selection bit of
the CPU mode register at a place of the product's memory map (0 selects page `0x00`, 1 page `0x01`). -/
inductive StackPage where
  | fixed (pageOne : Bool)
  | selectionBit (place : BitLoc)
  deriving DecidableEq, Repr

/-- `STP_MODE` (R7). -/
inductive StpMode where
  | enabled
  | disabled
  | absent
  deriving DecidableEq, Repr

/-- `BRK_WITH_PENDING` (R319): what BRK does when a source has its request and enable bits set. -/
inductive BrkWithPending where
  /-- (a) The rule of BRK exactly; the request stays pending. -/
  | stayPending
  /-- (b) BRK's pushes, then the pending source's vector; its request bit is cleared. -/
  | sourceVector
  /-- (c) The rule of BRK, followed at once by the entry for the pending source, its test on `PS.I` skipped. -/
  | entryAfter
  deriving DecidableEq, Repr

/-- `WAKE_WITH_I_SET` (R327): what a request that cannot be accepted does to a standby state. -/
inductive WakeWithISet where
  /-- (a) The CPU stays in the standby state. -/
  | stay
  /-- (b) The CPU runs on after the WIT or STP without an entry, the request still pending. -/
  | resume
  deriving DecidableEq, Repr

/-- The product's parameters (R5 to R11, R319, R327). -/
structure Product where
  stackPage : StackPage
  hasMulDiv : Bool
  stpMode : StpMode
  brkVector : Addr
  resetVector : Addr
  /-- `INT_SOURCES`, highest priority first. -/
  sources : List IntSource
  /-- `MEMMAP`; an address that no region holds is unmapped. -/
  memmap : List Region
  brkWithPending : BrkWithPending
  wakeWithISet : WakeWithISet
  deriving DecidableEq, Repr

/-- The product that `State.reset` is in: the harness defaults of `95_test_vectors.md` (stack in page `0x00`, BRK
vector at `0xFFF4`, MUL and DIV present, STP enabled, all of memory RAM, no interrupt source). DESIGN CHOICE, unsafe
for a claim about one run from reset: log entry 1. The reset vector's address is open (R9): log entry 3. -/
def referenceProduct : Product where
  stackPage := .fixed false
  hasMulDiv := true
  stpMode := .enabled
  brkVector := 0xFFF4
  resetVector := 0x0000
  sources := []
  memmap := [{ first := 0x0000, last := 0xFFFF, cls := .ram }]
  brkWithPending := .stayPending
  wakeWithISet := .stay

/-- The draws of one step, one name for each value the spec leaves arbitrary (`any8` and `any1` of R14). A name is
used at most once in a step, so two draws of one step are never one value. -/
inductive Draw where
  /-- What a device or an unmapped address answers to the read of the operand M (R72, R73). -/
  | operand
  /-- The same for the read of M(X) (R141). -/
  | mx
  /-- The same for a pointer's low byte (R68, R133). -/
  | pointerLo
  /-- The same for a pointer's high byte (R68, R133). -/
  | pointerHi
  /-- The same for the high byte of DIV's dividend (R189). -/
  | dividendHi
  /-- The same for the first byte an instruction pulls (R64). -/
  | pull1
  /-- The same for the second byte an instruction pulls (R64). -/
  | pull2
  /-- The same for the third byte an instruction pulls (R64). -/
  | pull3
  /-- The same for the low byte of the break address (R281). -/
  | brkVectorLo
  /-- The same for the high byte of the break address (R281). -/
  | brkVectorHi
  /-- The same for the low byte of an interrupt vector (R307). -/
  | irqVectorLo
  /-- The same for the high byte of an interrupt vector (R307). -/
  | irqVectorHi
  /-- The same for the low byte of the reset vector (R342). -/
  | resetVectorLo
  /-- The same for the high byte of the reset vector (R342). -/
  | resetVectorHi
  /-- N after a decimal ADC or SBC (R183). -/
  | decimalN
  /-- V after a decimal ADC or SBC (R183). -/
  | decimalV
  /-- Z after a decimal ADC or SBC (R183). -/
  | decimalZ
  /-- The result of a decimal ADC or SBC on an operand that is not packed decimal (R183). -/
  | decimalResult
  /-- The carry of a decimal ADC or SBC on an operand that is not packed decimal (R183). -/
  | decimalCarry
  /-- A after a DIV by zero or with a quotient above 255 (R189). -/
  | quotient
  /-- The byte such a DIV pushes (R189). -/
  | remainder
  /-- Whether BBC or BBS sees the byte as it was before the request bit was changed (R353). -/
  | staleRequest
  deriving DecidableEq, Repr

/-- The free byte of a draw in the step with this number: nothing is known of it (log entry 2). -/
opaque anyByte : Nat → Draw → Byte

/-- The free bit of a draw in the step with this number: nothing is known of it (log entry 2). -/
opaque anyBit : Nat → Draw → Bool

end Sys2Proof.Config
end

