-- ==== Sys2Proof/Machine/State.lean ====
section
/-! DEFINITION. The state of the machine as plain data: the six registers of the CPU (R20), the memory (R43), the run
state (R45), the hazard history (R46), the product's parameters (R5 to R11), what the outside world does next (reset
and interrupt requests: R302, R340), and the counter of the free values; why a step stops; and the state after reset. -/

namespace Sys2Proof.Machine

open Sys2Proof

/-- The memory as (address, byte) pairs, the addresses strictly rising, no byte equal to what an unlisted address reads
as (`Memory.wf`, in `Memory.lean`). -/
abbrev Memory := List Host.Cell

/-- The run state (R45). -/
inductive RunState where
  | running
  /-- After WIT: the internal clock is stopped. -/
  | wait
  /-- After STP: the oscillation is stopped. -/
  | stop
  deriving DecidableEq, Repr

/-- `prev`, what the instruction before left that a hazard rule asks about (R46, R350). `other` is the value with
nothing in it. -/
structure Prev where
  /-- It was an ADC or SBC executed with `PS.D = 1` (R351). -/
  decimalAdcSbc : Bool := false
  /-- It was a PLP (R352). -/
  plp : Bool := false
  /-- The bytes holding a request bit that it wrote, each with its value before the write (R353). -/
  requestBytes : List Host.Cell := []
  /-- The sources whose request bit it cleared and whose enable bit it set by one write, while `PS.I = 0` (R323). -/
  raced : List Config.IntSource := []
  deriving DecidableEq, Repr

/-- The history after reset and after an interrupt entry (R48, R350). -/
def Prev.other : Prev := {}

/-- What a reset leaves that the manual calls indeterminate (R343, R344): chosen by whoever asserts it. -/
structure ResetDraw where
  a : Byte
  x : Byte
  y : Byte
  sp : Byte
  /-- The seven other flags; bit 2 of it is not used. -/
  ps : Byte
  /-- The contents of RAM and of the device registers. -/
  ram : List Host.Cell
  deriving DecidableEq, Repr

/-- A request that a device raises inside an instruction, between two of its accesses (R76). The moment is the number of
writes that the instruction has then made, and the place of the next read among the reads up to the next write
(`drawTurn`). -/
structure Arrival where
  /-- The source, by its place in `INT_SOURCES`. -/
  source : Nat
  writes : Nat
  turn : Nat
  deriving DecidableEq, Repr

/-- One write of the running instruction: the address, and the byte there before and after it. -/
structure BusWrite where
  addr : Addr
  old : Byte
  new : Byte
  deriving DecidableEq, Repr

/-- What happens on the bus inside the running instruction (R75, R76); at an instruction boundary it is empty. -/
structure Bus where
  /-- The requests that arrive inside it and that no write has undone. -/
  arrivals : List Arrival := []
  /-- The writes it has made, the last first. -/
  writes : List BusWrite := []
  deriving DecidableEq, Repr

/-- What the outside world does at one instruction boundary and inside the instruction that follows, and the choices the
spec leaves free there. -/
structure Input where
  /-- Reset is asserted (R340). -/
  reset : Option ResetDraw := none
  /-- The sources, by place in `INT_SOURCES`, whose request bit the devices set (R302). -/
  requests : List Nat := []
  /-- The requests that the devices raise inside the instruction or the interrupt entry that follows (R76). -/
  during : List Arrival := []
  /-- An acceptable source is not taken at this boundary (R305). -/
  delayed : Bool := false
  /-- The sources that, if they are in `Prev.raced`, request all the same (R323). -/
  racedTaken : List Config.IntSource := []
  deriving DecidableEq, Repr

/-- Which forbidden sequence a `hazardViolation` names (R300, R351, R352). -/
inductive HazardKind where
  | decimalFlagWrite
  | plpNotFollowedByNop
  deriving DecidableEq, Repr

/-- A fault of the machine. There is none: no instruction of this CPU can fault, and no access can (R320); so no
constructor, raised by nobody (log entry 27). -/
inductive Fault where
  deriving DecidableEq, Repr

/-- Why a step has no successor: the model-level outcomes of R300. Each is safe: nothing can be proved about a program
that meets one. -/
inductive Refusal where
  /-- Raised by an arm of `exec` whose instruction has no meaning yet; safe. -/
  | notModelled (mnemonic : String)
  /-- Raised by the fetch of one of the 25 op-codes that are not instructions (R110), and by MUL, DIV and STP on a
  product without them (R111, R283); safe. -/
  | undefinedOpcode (op : Byte)
  /-- Raised by `JMP ($hhFF)` (R69, R251); safe. -/
  | jmpIndirectPageEnd
  /-- Raised by a step that would run the second instruction of a forbidden sequence (R351, R352); safe. -/
  | hazardViolation (kind : HazardKind)
  /-- Raised by the fetch of an instruction byte from a device register or an unmapped address (R73); safe. -/
  | fetchFromNonMemory (addr : Addr)
  deriving DecidableEq, Repr

/-- The state of the machine. Nothing in it is a function. -/
structure State where
  /-- The Accumulator (R21). -/
  a : Byte
  /-- Index Register X (R22). -/
  x : Byte
  /-- Index Register Y (R22). -/
  y : Byte
  /-- The Stack Pointer `S` (R23). -/
  sp : Byte
  /-- The Processor Status Register, bit 7 to bit 0: N V T B D I Z C (R26). -/
  ps : Byte
  /-- The Program Counter (R24). -/
  pc : Addr
  /-- The 65,536 bytes of memory (R43), the device registers' stored bits among them (R42, R44). -/
  mem : Memory
  /-- The run state (R45). -/
  run : RunState
  /-- The hazard history (R46). -/
  prev : Prev
  /-- What happens on the bus inside the running instruction (R76). The model's own field: log entry 7. -/
  bus : Bus
  /-- The product's parameters (R5 to R11); no step changes them. The model's own field: log entry 1. -/
  cfg : Config.Product
  /-- What the outside world does at the coming boundaries, the next one first; after the last, nothing. The model's
  own field: log entry 7. -/
  inputs : List Input
  /-- How many steps have been made: the number the free values of this step are drawn with. The model's own field:
  log entry 2. -/
  draws : Nat
  deriving DecidableEq, Repr

/-- The outcome of a step or of an instruction. -/
abbrev Result := Host.Outcome State Fault Refusal

/-- The machine right after reset, on the reference product: `PS.I = 1`, running, no history (R48, R343, R346). The
manual calls every other register indeterminate: they are zero here (DESIGN CHOICE, unsafe: log entry 4). No memory is
listed (log entry 5), so that the two bytes at the reset vector, and with them PC, are zero (R342; log entry 3). -/
def State.reset : State where
  a := 0
  x := 0
  y := 0
  sp := 0
  ps := 0b00000100
  pc := 0x0000
  mem := []
  run := .running
  prev := Prev.other
  bus := {}
  cfg := Config.referenceProduct
  inputs := []
  draws := 0

end Sys2Proof.Machine
end

