-- ==== Sys2Proof/Machine/Flags.lean ====
section
/-! DEFINITION. The processor status register's eight flags (R26 to R34), and every flag computation of the rules:
addition and subtraction in binary and in decimal, comparison, the shifts and rotates, multiplication and division.
Arithmetic is done on integers and narrowed at the end, as the rules write it. -/

namespace Sys2Proof.Machine

open Sys2Proof

/-- The eight flags of `PS`, from bit 7 to bit 0 (R26). -/
inductive Flag where
  | n | v | t | b | d | i | z | c
  deriving DecidableEq, Repr

/-- The bit of `PS` that a flag is (R26). -/
def Flag.bit : Flag → Nat
  | .n => 7 | .v => 6 | .t => 5 | .b => 4 | .d => 3 | .i => 2 | .z => 1 | .c => 0

/-- A flag of the processor status register. -/
def State.flag (s : State) (f : Flag) : Bool := s.ps.getLsbD f.bit

/-- The state with one flag written; the other seven bits of `PS` keep their values. -/
def State.setFlag (s : State) (f : Flag) (b : Bool) : State := { s with ps := withBit s.ps f.bit b }

/-- `SetNZ(v)`: N is bit 7 of the value, Z says that it is zero (R14). -/
def State.setNZ (s : State) (v : Byte) : State := (s.setFlag .n v.msb).setFlag .z (v == 0)

/-- What an addition or a subtraction gives: the result and the four flags it writes. -/
structure ArithOut where
  result : Byte
  n : Bool
  v : Bool
  z : Bool
  c : Bool
  deriving DecidableEq, Repr

/-- The state with the four flags of an addition or subtraction written (R36: ADC, SBC). -/
def State.setArith (s : State) (o : ArithOut) : State :=
  (((s.setFlag .n o.n).setFlag .v o.v).setFlag .z o.z).setFlag .c o.c

/-- A signed value is outside the range −128 to +127 (R33). -/
def signedOverflow (t : Int) : Bool := decide (t > 127) || decide (t < -128)

/-- Binary ADC (R181). -/
def addBinary (d m : Byte) (c : Bool) : ArithOut :=
  let t := d.toNat + m.toNat + c.toNat
  let r := BitVec.ofNat 8 t
  { result := r, n := r.msb, v := signedOverflow (d.toInt + m.toInt + c.toNat), z := r == 0, c := decide (t > 255) }

/-- Binary SBC; the borrow is the complement of the carry (R182). -/
def subBinary (d m : Byte) (c : Bool) : ArithOut :=
  let t : Int := d.toNat - m.toNat - (!c).toNat
  let r := BitVec.ofInt 8 t
  { result := r, n := r.msb, v := signedOverflow (d.toInt - m.toInt - (!c).toNat), z := r == 0, c := decide (t ≥ 0) }

/-- A byte is a packed decimal number: both its halves are at most 9 (R183). -/
def bcdValid (b : Byte) : Bool := decide (b.toNat / 16 ≤ 9) && decide (b.toNat % 16 ≤ 9)

/-- `dec(b)`, the value of a packed decimal number (R183). -/
def dec (b : Byte) : Nat := 10 * (b.toNat / 16) + b.toNat % 16

/-- `bcd(n)`, the packed decimal number of 0 to 99 (R183). -/
def bcd (n : Nat) : Byte := BitVec.ofNat 8 (n / 10 * 16 + n % 10)

/-- A decimal result: N, V and Z are arbitrary, and so are the result and C when an operand is not packed decimal
(R183; log entry 17). `k` numbers the step's draws. -/
def decimalOut (k : Nat) (valid : Bool) (r : Byte) (c : Bool) : ArithOut :=
  { result := if valid then r else Config.anyByte k .decimalResult
    n := Config.anyBit k .decimalN
    v := Config.anyBit k .decimalV
    z := Config.anyBit k .decimalZ
    c := if valid then c else Config.anyBit k .decimalCarry }

/-- Decimal ADC (R183). -/
def addDecimal (k : Nat) (d m : Byte) (c : Bool) : ArithOut :=
  let t := dec d + dec m + c.toNat
  decimalOut k (bcdValid d && bcdValid m) (bcd (t % 100)) (decide (t > 99))

/-- Decimal SBC (R183). -/
def subDecimal (k : Nat) (d m : Byte) (c : Bool) : ArithOut :=
  let t : Int := dec d - dec m - (!c).toNat
  decimalOut k (bcdValid d && bcdValid m) (bcd (t % 100).toNat) (decide (t ≥ 0))

/-- The state with the flags of the comparison of `d` with `m` written: N and Z of the difference, C when `d` is not
below `m`; no borrow comes in, and V is not written (R207). -/
def State.setCompare (s : State) (d m : Byte) : State :=
  (s.setNZ (d - m)).setFlag .c (decide (d.toNat ≥ m.toNat))

/-- What a shift or rotate gives: the result, the bit shifted out, and N. -/
structure ShiftOut where
  result : Byte
  c : Bool
  n : Bool
  deriving DecidableEq, Repr

/-- ASL (R211). -/
def shiftAsl (v : Byte) (_ : Bool) : ShiftOut :=
  let r := v <<< 1
  { result := r, c := v.getLsbD 7, n := r.msb }

/-- LSR: N is always cleared (R212). -/
def shiftLsr (v : Byte) (_ : Bool) : ShiftOut :=
  { result := v >>> 1, c := v.getLsbD 0, n := false }

/-- ROL: the old C goes to bit 0 (R213). -/
def shiftRol (v : Byte) (c : Bool) : ShiftOut :=
  let r := withBit (v <<< 1) 0 c
  { result := r, c := v.getLsbD 7, n := r.msb }

/-- ROR: the old C goes to bit 7 (R214). -/
def shiftRor (v : Byte) (c : Bool) : ShiftOut :=
  let r := withBit (v >>> 1) 7 c
  { result := r, c := v.getLsbD 0, n := r.msb }

/-- The state with the three flags of a shift or rotate written (R210). -/
def State.setShift (s : State) (o : ShiftOut) : State :=
  ((s.setFlag .c o.c).setFlag .z (o.result == 0)).setFlag .n o.n

/-- The 16-bit product of two unsigned bytes (R188; log entry 18). -/
def product (a m : Byte) : Addr := BitVec.ofNat 16 (a.toNat * m.toNat)

/-- The quotient and the remainder of the unsigned division of a 16-bit value by a byte, where the rule gives them: the
divisor is not zero and the quotient fits in a byte (R189; log entry 18). -/
def divide (n : Addr) (dv : Byte) : Option (Byte × Byte) :=
  if dv.toNat ≠ 0 ∧ n.toNat / dv.toNat ≤ 255 then
    some (BitVec.ofNat 8 (n.toNat / dv.toNat), BitVec.ofNat 8 (n.toNat % dv.toNat))
  else none

end Sys2Proof.Machine
end

