-- ==== Sys2Proof/Machine/Memory.lean ====
section
/-! DEFINITION. The memory as a list in canonical form: reading and writing one stored byte, what an unlisted address
reads as, and the canonical form. Which accesses reach the stored bytes is decided in `Ops.lean`. -/

namespace Sys2Proof.Machine

open Sys2Proof

/-- What an unlisted address reads as. The manual gives RAM no contents after reset (R43, R48): `0x00`, DESIGN CHOICE,
unsafe (log entry 5). -/
def unlistedByte : Byte := 0x00

/-- The byte stored at an address. -/
def Memory.get : Memory → Nat → Byte
  | [], _ => unlistedByte
  | (b, v) :: m, a => if b = a then v else Memory.get m a

/-- The memory with nothing listed at an address. -/
def Memory.erase : Memory → Nat → Memory
  | [], _ => []
  | (b, v) :: m, a => if b = a then Memory.erase m a else (b, v) :: Memory.erase m a

/-- The memory with a byte put before the first greater address. -/
def Memory.insert : Memory → Nat → Byte → Memory
  | [], a, v => [(a, v)]
  | (b, w) :: m, a, v => if a < b then (a, v) :: (b, w) :: m else (b, w) :: Memory.insert m a v

/-- The memory after a byte is stored: an address that then reads as an unlisted one is not listed. -/
def Memory.set (m : Memory) (a : Nat) (v : Byte) : Memory :=
  if v = unlistedByte then Memory.erase m a else Memory.insert (Memory.erase m a) a v

/-- The canonical form: addresses strictly rising and inside the space of 65,536 bytes (R60), and no entry equal to
what an unlisted address reads as. Equal memories in canonical form are equal lists. -/
abbrev Memory.wf (m : Memory) : Prop :=
  m.Pairwise (fun p q => p.1 < q.1) ∧ ∀ c ∈ m, c.1 < 65536 ∧ c.2 ≠ unlistedByte

/-- The byte stored at an address: what RAM and ROM read as, and the stored bits of a device register. -/
def State.peek (s : State) (a : Addr) : Byte := s.mem.get a.toNat

end Sys2Proof.Machine
end

