-- ==== Sys2Proof/Machine/Ops.lean ====
section
/-! DEFINITION. The named operations over memory and registers that the instructions' rules are written with (R14):
reading and writing one byte by the class of its address, the two-byte reads, the stack, the advance of the program
counter, the interrupt sources' bits, taking an exception, and the return from one. -/

namespace Sys2Proof.Machine

open Sys2Proof Sys2Proof.Config

/-! ## Memory by class -/

/-- The class of an address in the product's memory map (R11). -/
def classOf (p : Product) (a : Addr) : MemClass :=
  match p.memmap.find? (fun r => decide (r.first ≤ a) && decide (a ≤ r.last)) with
  | some r => r.cls
  | none => .unmapped

/-- The bits of memory that the CPU itself uses: the request and the enable bit of every source (R44) and the stack
page selection bit where the product has one (R41). -/
def controlBits (p : Product) : List BitLoc :=
  p.sources.flatMap (fun k => [k.request, k.enable]) ++
    match p.stackPage with
    | .fixed _ => []
    | .selectionBit l => [l]

/-- The control bits that lie in the byte at an address, as a mask. -/
def controlMask (p : Product) (a : Addr) : Byte :=
  ((controlBits p).filter (fun l => l.addr == a)).foldl (fun m l => m ||| bitMask l.bit) 0

/-- The place of a read among the reads that an instruction makes up to its next write: pointer bytes first, then M,
then M(X) or the high byte of a dividend, each low byte before its high byte (R141, R142, R189, R266). The draws that
name no read have none. -/
def drawTurn : Draw → Nat
  | .pointerLo | .pull1 | .brkVectorLo | .irqVectorLo | .resetVectorLo => 0
  | .pointerHi | .pull2 | .brkVectorHi | .irqVectorHi | .resetVectorHi => 1
  | .operand | .pull3 => 2
  | .mx | .dividendHi => 3
  | .decimalN | .decimalV | .decimalZ | .decimalResult | .decimalCarry | .quotient | .remainder | .staleRequest => 0

/-- A request has arrived by the time of the read with a draw's name, after so many writes (R76). -/
def arrivedBy (writes : Nat) (d : Draw) (r : Arrival) : Bool :=
  decide (r.writes < writes) || (r.writes == writes && decide (r.turn ≤ drawTurn d))

/-- The source of a request has its request bit in the byte at an address. -/
def arrivesAt (p : Product) (a : Addr) (r : Arrival) : Bool :=
  match p.sources[r.source]? with
  | some k => k.request.addr == a
  | none => false

/-- The request bit of a source, by its place in `INT_SOURCES`, as a mask. -/
def requestMask (p : Product) (n : Nat) : Byte :=
  match p.sources[n]? with
  | some k => bitMask k.request.bit
  | none => 0

/-- The request bits of a list of arrivals that lie in the byte at an address, as a mask. -/
def arrivalMask (p : Product) (a : Addr) (rs : List Arrival) : Byte :=
  (rs.filter (arrivesAt p a)).foldl (fun m r => m ||| requestMask p r.source) 0

/-- The byte at an address as the read with a draw's name finds it: the stored byte, and the request bits that have
arrived by then inside the instruction (R76). -/
def State.seen (s : State) (d : Draw) (a : Addr) : Byte :=
  s.peek a ||| arrivalMask s.cfg a (s.bus.arrivals.filter (arrivedBy s.bus.writes.length d))

/-- `MemRead(a, 1)` (R66). RAM and ROM give the stored byte. A device register gives its control bits as stored (R44)
and arbitrary bits elsewhere (R72; log entries 8 and 9). An unmapped address gives an arbitrary byte (R73). A request
that has arrived inside the instruction is seen (R76). `d` names the draw. -/
def State.read (s : State) (d : Draw) (a : Addr) : Byte :=
  match classOf s.cfg a with
  | .ram => s.seen d a
  | .rom => s.peek a
  | .sfr => (s.seen d a &&& controlMask s.cfg a) ||| (anyByte s.draws d &&& ~~~ controlMask s.cfg a)
  | .unmapped => anyByte s.draws d

/-- A write to an address reaches the stored byte: RAM and the device registers (R72), not ROM or nothing (R73). -/
def writable (p : Product) (a : Addr) : Bool :=
  match classOf p a with
  | .ram | .sfr => true
  | .rom | .unmapped => false

/-- The state with a byte stored where it can be: a store to ROM or to an unmapped address changes nothing (R73), and
what a device register is sent is kept as its stored byte (R72). -/
def State.put (s : State) (a : Addr) (v : Byte) : State :=
  if writable s.cfg a then { s with mem := s.mem.set a.toNat v } else s

/-- The bus after a write of `v` at an address: the write is noted with the byte it replaces, and the requests that had
arrived in that byte are undone (R75, R76). -/
def State.busAfter (s : State) (a : Addr) (v : Byte) : Bus :=
  let due := fun r : Arrival => decide (r.writes ≤ s.bus.writes.length)
  { arrivals := s.bus.arrivals.filter fun r => !(due r && arrivesAt s.cfg a r)
    writes := { addr := a, old := s.peek a ||| arrivalMask s.cfg a (s.bus.arrivals.filter due), new := v }
      :: s.bus.writes }

/-- `MemWrite(a, 1, v)` (R66): the byte is stored (R72, R73), and a write that reaches it is noted on the bus. -/
def State.write (s : State) (a : Addr) (v : Byte) : State :=
  { s.put a v with bus := if writable s.cfg a then s.busAfter a v else s.bus }

/-- `MemRead16zp(z)`: the low byte first, the high byte at the next zero page location, modulo 256 (R68). -/
def State.read16zp (s : State) (z : Byte) : Addr :=
  join (s.read .pointerHi (zpAddr (z + 1))) (s.read .pointerLo (zpAddr z))

/-- `MemRead16(a)`: the low byte at `a`, the high byte at the next address, modulo 65536 (R68). -/
def State.read16 (s : State) (lo hi : Draw) (a : Addr) : Addr :=
  join (s.read hi (a + 1)) (s.read lo a)

/-! ## The stack -/

/-- A control bit as it is stored. -/
def State.bitAt (s : State) (l : BitLoc) : Bool := (s.peek l.addr).getLsbD l.bit

/-- `STACK_PAGE`, the high byte of every stack address, as it is at this moment (R5, R41, R63). -/
def State.stackPage (s : State) : Byte :=
  match s.cfg.stackPage with
  | .fixed one => if one then 0x01 else 0x00
  | .selectionBit l => if s.bitAt l then 0x01 else 0x00

/-- The stack address with a low byte: `STACK_PAGE : z` (R63). -/
def State.stackAddr (s : State) (z : Byte) : Addr := join s.stackPage z

/-- `Push(v)`: write, then decrement `S` modulo 256 (R64). -/
def State.push (s : State) (v : Byte) : State :=
  let t := s.write (s.stackAddr s.sp) v
  { t with sp := t.sp - 1 }

/-- `Pull()`: increment `S` modulo 256, then read (R64). -/
def State.pull (s : State) (d : Draw) : Byte × State :=
  let t := { s with sp := s.sp + 1 }
  (t.read d (t.stackAddr t.sp), t)

/-- The two pushes of a 16-bit value, high byte first (R65). -/
def State.push16 (s : State) (w : Addr) : State := (s.push (hiByte w)).push (loByte w)

/-! ## The program counter -/

/-- `PC <- pc0 + len`, modulo 65536 (R15, R25). -/
def State.advance (s : State) (len : Nat) : State := { s with pc := s.pc + BitVec.ofNat 16 len }

/-- The branch of the relative modes: from the address after the instruction, by a signed displacement (R130, R138,
R139). -/
def State.branch (s : State) (len : Nat) (rr : Byte) (taken : Bool) : State :=
  if taken then { s with pc := s.pc + BitVec.ofNat 16 len + sext16 rr } else s.advance len

/-! ## Interrupt sources -/

/-- The state with a control bit written by the hardware itself; the byte's other bits keep their values. -/
def State.setBitAt (s : State) (l : BitLoc) (b : Bool) : State := s.put l.addr (withBit (s.peek l.addr) l.bit b)

/-- A device sets the request bit of a source, by its place in `INT_SOURCES` (R302). -/
def State.raise (s : State) (n : Nat) : State :=
  match s.cfg.sources[n]? with
  | none => s
  | some k => s.setBitAt k.request true

/-- The end of what happens on the bus inside an instruction: the requests that arrived and that no write undid are in
the memory (R76). -/
def State.settle (s : State) : State :=
  { s.bus.arrivals.foldl (fun t r => t.raise r.source) s with bus := {} }

/-- A source has its request bit and its enable bit set. -/
def State.isPending (s : State) (k : IntSource) : Bool := s.bitAt k.request && s.bitAt k.enable

/-- The acceptance test of a source (R304). -/
def State.isAcceptable (s : State) (k : IntSource) : Bool := s.isPending k && !s.flag .i

/-- The pending source of highest priority, whatever `PS.I` is (R311, R319). -/
def State.firstPending (s : State) : Option IntSource := s.cfg.sources.find? s.isPending

/-! ## Taking an exception, and the return from one -/

/-- What BRK and interrupt entry have in common before the vector is fetched (R281, R306): B is written, the return
address and `PS` are pushed, with the old I in the pushed `PS`, and I becomes 1. -/
def State.saveContext (s : State) (brk : Bool) (ret : Addr) : State :=
  let t := (s.setFlag .b brk).push16 ret
  (t.push t.ps).setFlag .i true

/-- Taking an exception (R281, R306): the context is saved, then PC is loaded from the two bytes of the vector, the
low byte first (R307). T and D are left as they are (R309). -/
def State.takeException (s : State) (brk : Bool) (ret vector : Addr) (lo hi : Draw) : State :=
  let t := s.saveContext brk ret
  { t with pc := t.read16 lo hi vector }

/-- The entry for an accepted source (R306): its request bit is cleared, the exception is taken with B = 0 and the
address of the next instruction, and the CPU runs. -/
def State.enterInterrupt (s : State) (k : IntSource) : State :=
  let t := (s.setBitAt k.request false).takeException false s.pc k.vector .irqVectorLo .irqVectorHi
  { t with run := .running }

/-- The return from an exception (R266, R313): `PS`, PCL and PCH are pulled, in this order. -/
def State.returnFromException (s : State) : State :=
  let p := s.pull .pull1
  let lo := p.2.pull .pull2
  let hi := lo.2.pull .pull3
  { hi.2 with ps := p.1, pc := join hi.1 lo.1 }

end Sys2Proof.Machine
end

