-- ==== Sys2Proof/Syntax.lean ====
section
/-! DEFINITION. The instructions: one constructor for every row of `spec/opcode_table.json` (175 rows: one for each
pair of a mnemonic and an addressing mode, R117), with the operand fields of R93, and the two columns of the table that
rules are stated over: the mnemonic and the addressing mode.

Operand names are the manual's (R16, R93): `nn` immediate data, `zz` a zero page address, `ll` and `hh` the low and the
high byte of an absolute address, `rr` a displacement, `i` a bit number (0 to 7: `WellFormed.lean`). -/

namespace Sys2Proof

/-- The 71 mnemonics (R1, R12), in the manual's own order (`41_data_transfer.md` to `46_interrupt_special_other.md`). -/
inductive Mnemonic where
  | lda | ldm | ldx | ldy | sta | stx | sty | tax | txa | tay | tya | tsx | txs | pha | php | pla | plp | adc
  | sbc | inc | dec | inx | dex | iny | dey | mul | div | and | ora | eor | com | bit | tst | cmp | cpx | cpy
  | asl | lsr | rol | ror | rrf | clb | seb | clc | sec | cld | sed | cli | sei | clt | set | clv | jmp | bra
  | jsr | bbc | bbs | bcc | bcs | bne | beq | bpl | bmi | bvc | bvs | rts | rti | brk | wit | stp | nop
  deriving DecidableEq, Repr

/-- The 19 addressing modes (R121 to R139). -/
inductive AddrMode where
  | immediate | accumulator | zeroPage | zeroPageX | zeroPageY | absolute | absoluteX | absoluteY | implied
  | relative | indirectX | indirectY | indirectAbsolute | zeroPageIndirect | specialPage | zeroPageBit
  | accumulatorBit | accumulatorBitRelative | zeroPageBitRelative
  deriving DecidableEq, Repr

/-- An instruction: one constructor for every row of the op-code table. -/
inductive Instr where
  -- Data transfer
  /-- `LDA #$nn` (R151). -/
  | ldaImm (nn : Byte)
  /-- `LDA $zz` (R151). -/
  | ldaZp (zz : Byte)
  /-- `LDA $zz,X` (R151). -/
  | ldaZpX (zz : Byte)
  /-- `LDA $hhll` (R151). -/
  | ldaAbs (ll hh : Byte)
  /-- `LDA $hhll,X` (R151). -/
  | ldaAbsX (ll hh : Byte)
  /-- `LDA $hhll,Y` (R151). -/
  | ldaAbsY (ll hh : Byte)
  /-- `LDA ($zz,X)` (R151). -/
  | ldaIndX (zz : Byte)
  /-- `LDA ($zz),Y` (R151). -/
  | ldaIndY (zz : Byte)
  /-- `LDM #$nn,$zz` (R152). -/
  | ldmZp (nn zz : Byte)
  /-- `LDX #$nn` (R153). -/
  | ldxImm (nn : Byte)
  /-- `LDX $zz` (R153). -/
  | ldxZp (zz : Byte)
  /-- `LDX $zz,Y` (R153). -/
  | ldxZpY (zz : Byte)
  /-- `LDX $hhll` (R153). -/
  | ldxAbs (ll hh : Byte)
  /-- `LDX $hhll,Y` (R153). -/
  | ldxAbsY (ll hh : Byte)
  /-- `LDY #$nn` (R154). -/
  | ldyImm (nn : Byte)
  /-- `LDY $zz` (R154). -/
  | ldyZp (zz : Byte)
  /-- `LDY $zz,X` (R154). -/
  | ldyZpX (zz : Byte)
  /-- `LDY $hhll` (R154). -/
  | ldyAbs (ll hh : Byte)
  /-- `LDY $hhll,X` (R154). -/
  | ldyAbsX (ll hh : Byte)
  /-- `STA $zz` (R155). -/
  | staZp (zz : Byte)
  /-- `STA $zz,X` (R155). -/
  | staZpX (zz : Byte)
  /-- `STA $hhll` (R155). -/
  | staAbs (ll hh : Byte)
  /-- `STA $hhll,X` (R155). -/
  | staAbsX (ll hh : Byte)
  /-- `STA $hhll,Y` (R155). -/
  | staAbsY (ll hh : Byte)
  /-- `STA ($zz,X)` (R155). -/
  | staIndX (zz : Byte)
  /-- `STA ($zz),Y` (R155). -/
  | staIndY (zz : Byte)
  /-- `STX $zz` (R156). -/
  | stxZp (zz : Byte)
  /-- `STX $zz,Y` (R156). -/
  | stxZpY (zz : Byte)
  /-- `STX $hhll` (R156). -/
  | stxAbs (ll hh : Byte)
  /-- `STY $zz` (R157). -/
  | styZp (zz : Byte)
  /-- `STY $zz,X` (R157). -/
  | styZpX (zz : Byte)
  /-- `STY $hhll` (R157). -/
  | styAbs (ll hh : Byte)
  /-- `TAX` (R158). -/
  | tax
  /-- `TXA` (R159). -/
  | txa
  /-- `TAY` (R160). -/
  | tay
  /-- `TYA` (R161). -/
  | tya
  /-- `TSX` (R162). -/
  | tsx
  /-- `TXS` (R163). -/
  | txs
  /-- `PHA` (R164). -/
  | pha
  /-- `PHP` (R166). -/
  | php
  /-- `PLA` (R167). -/
  | pla
  /-- `PLP` (R168). -/
  | plp
  -- Arithmetic
  /-- `ADC #$nn` (R181). -/
  | adcImm (nn : Byte)
  /-- `ADC $zz` (R181). -/
  | adcZp (zz : Byte)
  /-- `ADC $zz,X` (R181). -/
  | adcZpX (zz : Byte)
  /-- `ADC $hhll` (R181). -/
  | adcAbs (ll hh : Byte)
  /-- `ADC $hhll,X` (R181). -/
  | adcAbsX (ll hh : Byte)
  /-- `ADC $hhll,Y` (R181). -/
  | adcAbsY (ll hh : Byte)
  /-- `ADC ($zz,X)` (R181). -/
  | adcIndX (zz : Byte)
  /-- `ADC ($zz),Y` (R181). -/
  | adcIndY (zz : Byte)
  /-- `SBC #$nn` (R182). -/
  | sbcImm (nn : Byte)
  /-- `SBC $zz` (R182). -/
  | sbcZp (zz : Byte)
  /-- `SBC $zz,X` (R182). -/
  | sbcZpX (zz : Byte)
  /-- `SBC $hhll` (R182). -/
  | sbcAbs (ll hh : Byte)
  /-- `SBC $hhll,X` (R182). -/
  | sbcAbsX (ll hh : Byte)
  /-- `SBC $hhll,Y` (R182). -/
  | sbcAbsY (ll hh : Byte)
  /-- `SBC ($zz,X)` (R182). -/
  | sbcIndX (zz : Byte)
  /-- `SBC ($zz),Y` (R182). -/
  | sbcIndY (zz : Byte)
  /-- `INC A` (R184). -/
  | incAcc
  /-- `INC $zz` (R184). -/
  | incZp (zz : Byte)
  /-- `INC $zz,X` (R184). -/
  | incZpX (zz : Byte)
  /-- `INC $hhll` (R184). -/
  | incAbs (ll hh : Byte)
  /-- `INC $hhll,X` (R184). -/
  | incAbsX (ll hh : Byte)
  /-- `DEC A` (R185). -/
  | decAcc
  /-- `DEC $zz` (R185). -/
  | decZp (zz : Byte)
  /-- `DEC $zz,X` (R185). -/
  | decZpX (zz : Byte)
  /-- `DEC $hhll` (R185). -/
  | decAbs (ll hh : Byte)
  /-- `DEC $hhll,X` (R185). -/
  | decAbsX (ll hh : Byte)
  /-- `INX` (R186). -/
  | inx
  /-- `DEX` (R187). -/
  | dex
  /-- `INY` (R190). -/
  | iny
  /-- `DEY` (R191). -/
  | dey
  /-- `MUL $zz,X` (R188). -/
  | mulZpX (zz : Byte)
  /-- `DIV $zz,X` (R189). -/
  | divZpX (zz : Byte)
  -- Logic, compare, shift and rotate
  /-- `AND #$nn` (R201). -/
  | andImm (nn : Byte)
  /-- `AND $zz` (R201). -/
  | andZp (zz : Byte)
  /-- `AND $zz,X` (R201). -/
  | andZpX (zz : Byte)
  /-- `AND $hhll` (R201). -/
  | andAbs (ll hh : Byte)
  /-- `AND $hhll,X` (R201). -/
  | andAbsX (ll hh : Byte)
  /-- `AND $hhll,Y` (R201). -/
  | andAbsY (ll hh : Byte)
  /-- `AND ($zz,X)` (R201). -/
  | andIndX (zz : Byte)
  /-- `AND ($zz),Y` (R201). -/
  | andIndY (zz : Byte)
  /-- `ORA #$nn` (R202). -/
  | oraImm (nn : Byte)
  /-- `ORA $zz` (R202). -/
  | oraZp (zz : Byte)
  /-- `ORA $zz,X` (R202). -/
  | oraZpX (zz : Byte)
  /-- `ORA $hhll` (R202). -/
  | oraAbs (ll hh : Byte)
  /-- `ORA $hhll,X` (R202). -/
  | oraAbsX (ll hh : Byte)
  /-- `ORA $hhll,Y` (R202). -/
  | oraAbsY (ll hh : Byte)
  /-- `ORA ($zz,X)` (R202). -/
  | oraIndX (zz : Byte)
  /-- `ORA ($zz),Y` (R202). -/
  | oraIndY (zz : Byte)
  /-- `EOR #$nn` (R203). -/
  | eorImm (nn : Byte)
  /-- `EOR $zz` (R203). -/
  | eorZp (zz : Byte)
  /-- `EOR $zz,X` (R203). -/
  | eorZpX (zz : Byte)
  /-- `EOR $hhll` (R203). -/
  | eorAbs (ll hh : Byte)
  /-- `EOR $hhll,X` (R203). -/
  | eorAbsX (ll hh : Byte)
  /-- `EOR $hhll,Y` (R203). -/
  | eorAbsY (ll hh : Byte)
  /-- `EOR ($zz,X)` (R203). -/
  | eorIndX (zz : Byte)
  /-- `EOR ($zz),Y` (R203). -/
  | eorIndY (zz : Byte)
  /-- `COM $zz` (R204). -/
  | comZp (zz : Byte)
  /-- `BIT $zz` (R205). -/
  | bitZp (zz : Byte)
  /-- `BIT $hhll` (R205). -/
  | bitAbs (ll hh : Byte)
  /-- `TST $zz` (R206). -/
  | tstZp (zz : Byte)
  /-- `CMP #$nn` (R207). -/
  | cmpImm (nn : Byte)
  /-- `CMP $zz` (R207). -/
  | cmpZp (zz : Byte)
  /-- `CMP $zz,X` (R207). -/
  | cmpZpX (zz : Byte)
  /-- `CMP $hhll` (R207). -/
  | cmpAbs (ll hh : Byte)
  /-- `CMP $hhll,X` (R207). -/
  | cmpAbsX (ll hh : Byte)
  /-- `CMP $hhll,Y` (R207). -/
  | cmpAbsY (ll hh : Byte)
  /-- `CMP ($zz,X)` (R207). -/
  | cmpIndX (zz : Byte)
  /-- `CMP ($zz),Y` (R207). -/
  | cmpIndY (zz : Byte)
  /-- `CPX #$nn` (R208). -/
  | cpxImm (nn : Byte)
  /-- `CPX $zz` (R208). -/
  | cpxZp (zz : Byte)
  /-- `CPX $hhll` (R208). -/
  | cpxAbs (ll hh : Byte)
  /-- `CPY #$nn` (R209). -/
  | cpyImm (nn : Byte)
  /-- `CPY $zz` (R209). -/
  | cpyZp (zz : Byte)
  /-- `CPY $hhll` (R209). -/
  | cpyAbs (ll hh : Byte)
  /-- `ASL A` (R211). -/
  | aslAcc
  /-- `ASL $zz` (R211). -/
  | aslZp (zz : Byte)
  /-- `ASL $zz,X` (R211). -/
  | aslZpX (zz : Byte)
  /-- `ASL $hhll` (R211). -/
  | aslAbs (ll hh : Byte)
  /-- `ASL $hhll,X` (R211). -/
  | aslAbsX (ll hh : Byte)
  /-- `LSR A` (R212). -/
  | lsrAcc
  /-- `LSR $zz` (R212). -/
  | lsrZp (zz : Byte)
  /-- `LSR $zz,X` (R212). -/
  | lsrZpX (zz : Byte)
  /-- `LSR $hhll` (R212). -/
  | lsrAbs (ll hh : Byte)
  /-- `LSR $hhll,X` (R212). -/
  | lsrAbsX (ll hh : Byte)
  /-- `ROL A` (R213). -/
  | rolAcc
  /-- `ROL $zz` (R213). -/
  | rolZp (zz : Byte)
  /-- `ROL $zz,X` (R213). -/
  | rolZpX (zz : Byte)
  /-- `ROL $hhll` (R213). -/
  | rolAbs (ll hh : Byte)
  /-- `ROL $hhll,X` (R213). -/
  | rolAbsX (ll hh : Byte)
  /-- `ROR A` (R214). -/
  | rorAcc
  /-- `ROR $zz` (R214). -/
  | rorZp (zz : Byte)
  /-- `ROR $zz,X` (R214). -/
  | rorZpX (zz : Byte)
  /-- `ROR $hhll` (R214). -/
  | rorAbs (ll hh : Byte)
  /-- `ROR $hhll,X` (R214). -/
  | rorAbsX (ll hh : Byte)
  /-- `RRF $zz` (R215). -/
  | rrfZp (zz : Byte)
  -- Bit and flag
  /-- `CLB i,$zz` (R231). -/
  | clbZp (i : Nat) (zz : Byte)
  /-- `CLB i,A` (R231). -/
  | clbAcc (i : Nat)
  /-- `SEB i,$zz` (R232). -/
  | sebZp (i : Nat) (zz : Byte)
  /-- `SEB i,A` (R232). -/
  | sebAcc (i : Nat)
  /-- `CLC` (R233). -/
  | clc
  /-- `SEC` (R234). -/
  | sec
  /-- `CLD` (R235). -/
  | cld
  /-- `SED` (R236). -/
  | sed
  /-- `CLI` (R237). -/
  | cli
  /-- `SEI` (R238). -/
  | sei
  /-- `CLT` (R239). -/
  | clt
  /-- `SET` (R240). -/
  | set
  /-- `CLV` (R241). -/
  | clv
  -- Jump, branch and return
  /-- `JMP $hhll` (R251). -/
  | jmpAbs (ll hh : Byte)
  /-- `JMP ($hhll)` (R251). -/
  | jmpInd (ll hh : Byte)
  /-- `JMP ($zz)` (R251). -/
  | jmpZpInd (zz : Byte)
  /-- `BRA $hhll` (R252). -/
  | bra (rr : Byte)
  /-- `JSR $hhll` (R253). -/
  | jsrAbs (ll hh : Byte)
  /-- `JSR ($zz)` (R253). -/
  | jsrZpInd (zz : Byte)
  /-- `JSR \$hhll` (R253). -/
  | jsrSpecial (ll : Byte)
  /-- `BBC i,A,$hhll` (R254). -/
  | bbcAcc (i : Nat) (rr : Byte)
  /-- `BBC i,$zz,$hhll` (R254). -/
  | bbcZp (i : Nat) (zz rr : Byte)
  /-- `BBS i,A,$hhll` (R255). -/
  | bbsAcc (i : Nat) (rr : Byte)
  /-- `BBS i,$zz,$hhll` (R255). -/
  | bbsZp (i : Nat) (zz rr : Byte)
  /-- `BCC $hhll` (R256). -/
  | bcc (rr : Byte)
  /-- `BCS $hhll` (R257). -/
  | bcs (rr : Byte)
  /-- `BNE $hhll` (R258). -/
  | bne (rr : Byte)
  /-- `BEQ $hhll` (R259). -/
  | beq (rr : Byte)
  /-- `BPL $hhll` (R260). -/
  | bpl (rr : Byte)
  /-- `BMI $hhll` (R261). -/
  | bmi (rr : Byte)
  /-- `BVC $hhll` (R262). -/
  | bvc (rr : Byte)
  /-- `BVS $hhll` (R263). -/
  | bvs (rr : Byte)
  /-- `RTS` (R265). -/
  | rts
  /-- `RTI` (R266). -/
  | rti
  -- Interrupt, special and other
  /-- `BRK` (R281). -/
  | brk
  /-- `WIT` (R282). -/
  | wit
  /-- `STP` (R283). -/
  | stp
  /-- `NOP` (R284). -/
  | nop
  deriving DecidableEq, Repr

/-- The mnemonic of an instruction: the table's column of that name. -/
def Instr.mnemonic : Instr → Mnemonic
  | .ldaImm _ | .ldaZp _ | .ldaZpX _ | .ldaAbs _ _ | .ldaAbsX _ _ | .ldaAbsY _ _ | .ldaIndX _ | .ldaIndY _ => .lda
  | .ldmZp _ _ => .ldm
  | .ldxImm _ | .ldxZp _ | .ldxZpY _ | .ldxAbs _ _ | .ldxAbsY _ _ => .ldx
  | .ldyImm _ | .ldyZp _ | .ldyZpX _ | .ldyAbs _ _ | .ldyAbsX _ _ => .ldy
  | .staZp _ | .staZpX _ | .staAbs _ _ | .staAbsX _ _ | .staAbsY _ _ | .staIndX _ | .staIndY _ => .sta
  | .stxZp _ | .stxZpY _ | .stxAbs _ _ => .stx
  | .styZp _ | .styZpX _ | .styAbs _ _ => .sty
  | .tax => .tax
  | .txa => .txa
  | .tay => .tay
  | .tya => .tya
  | .tsx => .tsx
  | .txs => .txs
  | .pha => .pha
  | .php => .php
  | .pla => .pla
  | .plp => .plp
  | .adcImm _ | .adcZp _ | .adcZpX _ | .adcAbs _ _ | .adcAbsX _ _ | .adcAbsY _ _ | .adcIndX _ | .adcIndY _ => .adc
  | .sbcImm _ | .sbcZp _ | .sbcZpX _ | .sbcAbs _ _ | .sbcAbsX _ _ | .sbcAbsY _ _ | .sbcIndX _ | .sbcIndY _ => .sbc
  | .incAcc | .incZp _ | .incZpX _ | .incAbs _ _ | .incAbsX _ _ => .inc
  | .decAcc | .decZp _ | .decZpX _ | .decAbs _ _ | .decAbsX _ _ => .dec
  | .inx => .inx
  | .dex => .dex
  | .iny => .iny
  | .dey => .dey
  | .mulZpX _ => .mul
  | .divZpX _ => .div
  | .andImm _ | .andZp _ | .andZpX _ | .andAbs _ _ | .andAbsX _ _ | .andAbsY _ _ | .andIndX _ | .andIndY _ => .and
  | .oraImm _ | .oraZp _ | .oraZpX _ | .oraAbs _ _ | .oraAbsX _ _ | .oraAbsY _ _ | .oraIndX _ | .oraIndY _ => .ora
  | .eorImm _ | .eorZp _ | .eorZpX _ | .eorAbs _ _ | .eorAbsX _ _ | .eorAbsY _ _ | .eorIndX _ | .eorIndY _ => .eor
  | .comZp _ => .com
  | .bitZp _ | .bitAbs _ _ => .bit
  | .tstZp _ => .tst
  | .cmpImm _ | .cmpZp _ | .cmpZpX _ | .cmpAbs _ _ | .cmpAbsX _ _ | .cmpAbsY _ _ | .cmpIndX _ | .cmpIndY _ => .cmp
  | .cpxImm _ | .cpxZp _ | .cpxAbs _ _ => .cpx
  | .cpyImm _ | .cpyZp _ | .cpyAbs _ _ => .cpy
  | .aslAcc | .aslZp _ | .aslZpX _ | .aslAbs _ _ | .aslAbsX _ _ => .asl
  | .lsrAcc | .lsrZp _ | .lsrZpX _ | .lsrAbs _ _ | .lsrAbsX _ _ => .lsr
  | .rolAcc | .rolZp _ | .rolZpX _ | .rolAbs _ _ | .rolAbsX _ _ => .rol
  | .rorAcc | .rorZp _ | .rorZpX _ | .rorAbs _ _ | .rorAbsX _ _ => .ror
  | .rrfZp _ => .rrf
  | .clbZp _ _ | .clbAcc _ => .clb
  | .sebZp _ _ | .sebAcc _ => .seb
  | .clc => .clc
  | .sec => .sec
  | .cld => .cld
  | .sed => .sed
  | .cli => .cli
  | .sei => .sei
  | .clt => .clt
  | .set => .set
  | .clv => .clv
  | .jmpAbs _ _ | .jmpInd _ _ | .jmpZpInd _ => .jmp
  | .bra _ => .bra
  | .jsrAbs _ _ | .jsrZpInd _ | .jsrSpecial _ => .jsr
  | .bbcAcc _ _ | .bbcZp _ _ _ => .bbc
  | .bbsAcc _ _ | .bbsZp _ _ _ => .bbs
  | .bcc _ => .bcc
  | .bcs _ => .bcs
  | .bne _ => .bne
  | .beq _ => .beq
  | .bpl _ => .bpl
  | .bmi _ => .bmi
  | .bvc _ => .bvc
  | .bvs _ => .bvs
  | .rts => .rts
  | .rti => .rti
  | .brk => .brk
  | .wit => .wit
  | .stp => .stp
  | .nop => .nop

/-- The addressing mode of an instruction: the table's column of that name (LDM's is Zero Page, R121). -/
def Instr.mode : Instr → AddrMode
  | .tax | .txa | .tay | .tya | .tsx | .txs | .pha | .php | .pla | .plp | .inx | .dex | .iny | .dey | .clc
  | .sec | .cld | .sed | .cli | .sei | .clt | .set | .clv | .rts | .rti | .brk | .wit | .stp | .nop => .implied
  | .ldaImm _ | .ldxImm _ | .ldyImm _ | .adcImm _ | .sbcImm _ | .andImm _ | .oraImm _ | .eorImm _ | .cmpImm _
  | .cpxImm _ | .cpyImm _ => .immediate
  | .incAcc | .decAcc | .aslAcc | .lsrAcc | .rolAcc | .rorAcc => .accumulator
  | .ldaZp _ | .ldmZp _ _ | .ldxZp _ | .ldyZp _ | .staZp _ | .stxZp _ | .styZp _ | .adcZp _ | .sbcZp _
  | .incZp _ | .decZp _ | .andZp _ | .oraZp _ | .eorZp _ | .comZp _ | .bitZp _ | .tstZp _ | .cmpZp _ | .cpxZp _
  | .cpyZp _ | .aslZp _ | .lsrZp _ | .rolZp _ | .rorZp _ | .rrfZp _ => .zeroPage
  | .ldaZpX _ | .ldyZpX _ | .staZpX _ | .styZpX _ | .adcZpX _ | .sbcZpX _ | .incZpX _ | .decZpX _ | .mulZpX _
  | .divZpX _ | .andZpX _ | .oraZpX _ | .eorZpX _ | .cmpZpX _ | .aslZpX _ | .lsrZpX _ | .rolZpX _ | .rorZpX _ => .zeroPageX
  | .ldxZpY _ | .stxZpY _ => .zeroPageY
  | .ldaAbs _ _ | .ldxAbs _ _ | .ldyAbs _ _ | .staAbs _ _ | .stxAbs _ _ | .styAbs _ _ | .adcAbs _ _
  | .sbcAbs _ _ | .incAbs _ _ | .decAbs _ _ | .andAbs _ _ | .oraAbs _ _ | .eorAbs _ _ | .bitAbs _ _
  | .cmpAbs _ _ | .cpxAbs _ _ | .cpyAbs _ _ | .aslAbs _ _ | .lsrAbs _ _ | .rolAbs _ _ | .rorAbs _ _
  | .jmpAbs _ _ | .jsrAbs _ _ => .absolute
  | .ldaAbsX _ _ | .ldyAbsX _ _ | .staAbsX _ _ | .adcAbsX _ _ | .sbcAbsX _ _ | .incAbsX _ _ | .decAbsX _ _
  | .andAbsX _ _ | .oraAbsX _ _ | .eorAbsX _ _ | .cmpAbsX _ _ | .aslAbsX _ _ | .lsrAbsX _ _ | .rolAbsX _ _
  | .rorAbsX _ _ => .absoluteX
  | .ldaAbsY _ _ | .ldxAbsY _ _ | .staAbsY _ _ | .adcAbsY _ _ | .sbcAbsY _ _ | .andAbsY _ _ | .oraAbsY _ _
  | .eorAbsY _ _ | .cmpAbsY _ _ => .absoluteY
  | .bra _ | .bcc _ | .bcs _ | .bne _ | .beq _ | .bpl _ | .bmi _ | .bvc _ | .bvs _ => .relative
  | .ldaIndX _ | .staIndX _ | .adcIndX _ | .sbcIndX _ | .andIndX _ | .oraIndX _ | .eorIndX _ | .cmpIndX _ => .indirectX
  | .ldaIndY _ | .staIndY _ | .adcIndY _ | .sbcIndY _ | .andIndY _ | .oraIndY _ | .eorIndY _ | .cmpIndY _ => .indirectY
  | .jmpInd _ _ => .indirectAbsolute
  | .jmpZpInd _ | .jsrZpInd _ => .zeroPageIndirect
  | .jsrSpecial _ => .specialPage
  | .clbZp _ _ | .sebZp _ _ => .zeroPageBit
  | .clbAcc _ | .sebAcc _ => .accumulatorBit
  | .bbcAcc _ _ | .bbsAcc _ _ => .accumulatorBitRelative
  | .bbcZp _ _ _ | .bbsZp _ _ _ => .zeroPageBitRelative

end Sys2Proof
end

