-- ==== Sys2Proof/Machine/Hazards.lean ====
section
/-! DEFINITION. The hazards: the instruction sequences the manual forbids (R351, R352), which a step refuses, and the
history `prev` that every instruction leaves (R46, R350). The third hazard, a BBC or BBS on a request bit just changed
(R353), has its effect in `State.testedByte`, and the race of R323 in `State.requesting`. -/

namespace Sys2Proof.Machine

open Sys2Proof Sys2Proof.Config

/-- SEC, CLC and CLD, the instructions that may not directly follow a decimal ADC or SBC (R351). -/
def writesDecimalFlag (i : Instr) : Bool := i.mnemonic == .sec || i.mnemonic == .clc || i.mnemonic == .cld

/-- The forbidden sequence that running `i` now would complete (R351, R352). -/
def hazard (i : Instr) (s : State) : Option HazardKind :=
  if s.prev.plp && i.mnemonic != .nop then some .plpNotFollowedByNop
  else if s.prev.decimalAdcSbc && writesDecimalFlag i then some .decimalFlagWrite
  else none

/-- The bytes holding a request bit that an instruction wrote, each with its value before the write, be it the same
(R353). -/
def writtenRequestBytes (p : Product) (ws : List BusWrite) : List Host.Cell :=
  (ws.filter fun w => p.sources.any fun k => k.request.addr == w.addr).map fun w => (w.addr.toNat, w.old)

/-- One write took a source from request 1 and enable 0 to request 0 and enable 1, both bits being in its byte (R323). -/
def racedBy (k : IntSource) (w : BusWrite) : Bool :=
  k.request.addr == w.addr && k.enable.addr == w.addr
    && (w.old.getLsbD k.request.bit && !w.old.getLsbD k.enable.bit)
    && (!w.new.getLsbD k.request.bit && w.new.getLsbD k.enable.bit)

/-- The sources that one of an instruction's writes took so, while `PS.I` was 0 (R323). -/
def racedSources (s : State) (ws : List BusWrite) : List IntSource :=
  s.cfg.sources.filter fun k => !s.flag .i && ws.any (racedBy k)

/-- BRK at this state ends with an interrupt accepted (R319, behaviours (b) and (c)). -/
def breakAccepts (i : Instr) (s : State) : Bool :=
  i.mnemonic == .brk && s.firstPending.isSome && s.cfg.brkWithPending != .stayPending

/-- The history an instruction leaves, from the states before and after it (R46, R351, R352, R353). An interrupt
entry leaves none (R350). -/
def prevAfter (i : Instr) (s t : State) : Prev :=
  if breakAccepts i s then Prev.other
  else
    { decimalAdcSbc := (i.mnemonic == .adc || i.mnemonic == .sbc) && s.flag .d
      plp := i.mnemonic == .plp
      requestBytes := writtenRequestBytes s.cfg t.bus.writes
      raced := racedSources s t.bus.writes }

/-- The end of a step: the free values of the next step are new ones (log entry 2). -/
def State.tick (s : State) : State := { s with draws := s.draws + 1 }

/-- The end of an instruction that took `s` to `t`: the requests that arrived inside it land (R76), and the history is
written (R46). -/
def State.retire (i : Instr) (s t : State) : State := { t.settle with prev := prevAfter i s t }.tick

end Sys2Proof.Machine
end

