-- ==== Sys2Proof/Machine/Boundary.lean ====
section
/-! DEFINITION. What happens at an instruction boundary before an instruction is fetched (R305, R321): reset, the
requests of the devices, the acceptance of an interrupt source, and the standby states. What the outside world does is
plain data in `State.inputs` (log entry 7). -/

namespace Sys2Proof.Machine

open Sys2Proof Sys2Proof.Config

/-- What the outside world does at this boundary; after the last listed boundary, nothing. -/
def State.input (s : State) : Input := s.inputs.headD {}

/-- The state with this boundary's input used up; what it says of the next instruction's inside goes to the bus. -/
def State.popInput (s : State) : State := { s with inputs := s.inputs.tail, bus := { arrivals := s.input.during } }

/-- The devices set one source's request bit, whatever I and the enable bit are (R302). In the stop state only a source
that does not need the clock can (R326). -/
def State.request (s : State) (k : Nat) : State :=
  match s.cfg.sources[k]? with
  | none => s
  | some src => if s.run == .stop && !src.external then s else s.raise k

/-- The state in which this boundary's requests have arrived. -/
def State.landed (s : State) : State := s.input.requests.foldl State.request s.popInput

/-- A source requests to be accepted at this boundary: it is acceptable (R304), or the instruction before cleared its
request bit and set its enable bit by one write and the request is seen all the same (R323; log entry 13). -/
def State.requesting (s : State) (inp : Input) (k : IntSource) : Bool :=
  s.isAcceptable k || (inp.racedTaken.contains k && s.prev.raced.contains k && !s.flag .i)

/-- The source accepted at this boundary: the first requesting one in order of priority (R311), unless acceptance is
delayed to a later boundary (R305). -/
def State.accepted (s : State) (inp : Input) : Option IntSource :=
  if inp.delayed then none else s.cfg.sources.find? (s.requesting inp)

/-- The step that accepts a source (R306): the requests that arrive inside the entry land (R76), and the history is reset
(R350). -/
def State.accept (s : State) (k : IntSource) : State := { (s.enterInterrupt k).settle with prev := Prev.other }.tick

/-- A request that became 1 at this boundary belongs to a source that cannot be accepted (R327). -/
def wakes (s t : State) : Bool :=
  t.cfg.sources.any fun k => !s.bitAt k.request && t.bitAt k.request && !t.isAcceptable k

/-- A boundary in a standby state with nothing accepted: `t` is `s` with the requests arrived. The CPU stays, or runs on
after the WIT or STP by the product's choice of R327 (log entry 11). No instruction runs, so nothing arrives inside
one. -/
def State.standby (s t : State) : State :=
  { t.tick with run := if t.cfg.wakeWithISet == .resume && wakes s t then .running else t.run, bus := {} }

/-- The memory after a reset: ROM keeps its contents, every other byte is what the reset leaves (R344, R346). -/
def resetMemory (p : Product) (m : Memory) (ram : List Host.Cell) : Memory :=
  ram.foldl
    (fun m c =>
      if c.1 < 65536 ∧ classOf p (BitVec.ofNat 16 c.1) ≠ .rom ∧ classOf p (BitVec.ofNat 16 c.1) ≠ .unmapped then
        m.set c.1 c.2
      else m)
    (m.filter fun c => classOf p (BitVec.ofNat 16 c.1) == .rom)

/-- A reset of the running machine (R340, R341, R343, R346): `PS.I` becomes 1, the CPU runs, there is no history, PC is
loaded from the reset vector (R342), and everything else the manual calls indeterminate takes the values given with
the reset (log entry 23). -/
def State.resetWith (s : State) (d : ResetDraw) : State :=
  let t : State :=
    { s with
      a := d.a, x := d.x, y := d.y, sp := d.sp, ps := withBit d.ps Flag.i.bit true
      mem := resetMemory s.cfg s.mem d.ram, run := .running, prev := Prev.other, bus := {} }
  { t with pc := t.read16 .resetVectorLo .resetVectorHi t.cfg.resetVector }.tick

end Sys2Proof.Machine
end

