-- ==== Sys2Proof/WellFormed.lean ====
section
/-! DEFINITION. When an instruction is well formed: its bit number is one of 0 to 7, the values that the field
`op[7:5]` can hold (R91, R93, R97). Every other operand is a whole byte, and each of its 256 values is an operand. -/

namespace Sys2Proof

/-- The bit number of an instruction that has one: BBC, BBS, CLB and SEB (R91). -/
def Instr.bitNumber : Instr → Option Nat
  | .clbZp i _ => some i
  | .clbAcc i => some i
  | .sebZp i _ => some i
  | .sebAcc i => some i
  | .bbcAcc i _ => some i
  | .bbcZp i _ _ => some i
  | .bbsAcc i _ => some i
  | .bbsZp i _ _ => some i
  | .ldaImm _ | .ldaZp _ | .ldaZpX _ | .ldaAbs _ _ | .ldaAbsX _ _ | .ldaAbsY _ _ | .ldaIndX _ | .ldaIndY _
  | .ldmZp _ _ | .ldxImm _ | .ldxZp _ | .ldxZpY _ | .ldxAbs _ _ | .ldxAbsY _ _ | .ldyImm _ | .ldyZp _
  | .ldyZpX _ | .ldyAbs _ _ | .ldyAbsX _ _ | .staZp _ | .staZpX _ | .staAbs _ _ | .staAbsX _ _ | .staAbsY _ _
  | .staIndX _ | .staIndY _ | .stxZp _ | .stxZpY _ | .stxAbs _ _ | .styZp _ | .styZpX _ | .styAbs _ _ | .tax
  | .txa | .tay | .tya | .tsx | .txs | .pha | .php | .pla | .plp | .adcImm _ | .adcZp _ | .adcZpX _
  | .adcAbs _ _ | .adcAbsX _ _ | .adcAbsY _ _ | .adcIndX _ | .adcIndY _ | .sbcImm _ | .sbcZp _ | .sbcZpX _
  | .sbcAbs _ _ | .sbcAbsX _ _ | .sbcAbsY _ _ | .sbcIndX _ | .sbcIndY _ | .incAcc | .incZp _ | .incZpX _
  | .incAbs _ _ | .incAbsX _ _ | .decAcc | .decZp _ | .decZpX _ | .decAbs _ _ | .decAbsX _ _ | .inx | .dex
  | .iny | .dey | .mulZpX _ | .divZpX _ | .andImm _ | .andZp _ | .andZpX _ | .andAbs _ _ | .andAbsX _ _
  | .andAbsY _ _ | .andIndX _ | .andIndY _ | .oraImm _ | .oraZp _ | .oraZpX _ | .oraAbs _ _ | .oraAbsX _ _
  | .oraAbsY _ _ | .oraIndX _ | .oraIndY _ | .eorImm _ | .eorZp _ | .eorZpX _ | .eorAbs _ _ | .eorAbsX _ _
  | .eorAbsY _ _ | .eorIndX _ | .eorIndY _ | .comZp _ | .bitZp _ | .bitAbs _ _ | .tstZp _ | .cmpImm _
  | .cmpZp _ | .cmpZpX _ | .cmpAbs _ _ | .cmpAbsX _ _ | .cmpAbsY _ _ | .cmpIndX _ | .cmpIndY _ | .cpxImm _
  | .cpxZp _ | .cpxAbs _ _ | .cpyImm _ | .cpyZp _ | .cpyAbs _ _ | .aslAcc | .aslZp _ | .aslZpX _ | .aslAbs _ _
  | .aslAbsX _ _ | .lsrAcc | .lsrZp _ | .lsrZpX _ | .lsrAbs _ _ | .lsrAbsX _ _ | .rolAcc | .rolZp _ | .rolZpX _
  | .rolAbs _ _ | .rolAbsX _ _ | .rorAcc | .rorZp _ | .rorZpX _ | .rorAbs _ _ | .rorAbsX _ _ | .rrfZp _ | .clc
  | .sec | .cld | .sed | .cli | .sei | .clt | .set | .clv | .jmpAbs _ _ | .jmpInd _ _ | .jmpZpInd _ | .bra _
  | .jsrAbs _ _ | .jsrZpInd _ | .jsrSpecial _ | .bcc _ | .bcs _ | .bne _ | .beq _ | .bpl _ | .bmi _ | .bvc _
  | .bvs _ | .rts | .rti | .brk | .wit | .stp | .nop => none

/-- An instruction is well formed when its bit number, if it has one, is at most 7 ("Data in 0 to 7", R16). -/
def Instr.wellFormed (i : Instr) : Bool :=
  match i.bitNumber with
  | some k => decide (k < 8)
  | none => true

end Sys2Proof
end

