-- ==== Sys2Proof/Decode.lean ====
section
/-! DEFINITION. The decoder and, after it, the encoder, written from the op-code map (R95) and the bit formats of
the four bit instructions (R97). The op-code byte alone decides the instruction and its length (R92, R94); the operand
bytes follow in address order (R91). The 25 blank op-codes of the map are rejected by name (R110). -/

namespace Sys2Proof

/-- What an op-code byte says: the instruction's format (R91) and, when its operand bytes are given, the instruction. -/
inductive Shape where
  /-- F1: the op-code alone. -/
  | f1 (i : Instr)
  /-- F2: one operand byte. -/
  | f2 (f : Byte → Instr)
  /-- F3: two operand bytes, Operand I first. -/
  | f3 (f : Byte → Byte → Instr)

/-- Why bytes are no instruction. -/
inductive DecodeError where
  /-- The first byte is one of the 25 op-codes that are not instructions (R110). -/
  | undefinedOpcode (op : Byte)
  /-- There are fewer bytes than the op-code's length asks for. -/
  | truncated
  deriving DecidableEq, Repr

/-- The op-codes whose eight bits are all fixed: the op-code map of R95 without its columns 3, 7, B and F. -/
def fixedShape (op : Nat) : Option Shape :=
  match op with
  | 0x00 => some (.f1 .brk)
  | 0x01 => some (.f2 .oraIndX)
  | 0x02 => some (.f2 .jsrZpInd)
  | 0x05 => some (.f2 .oraZp)
  | 0x06 => some (.f2 .aslZp)
  | 0x08 => some (.f1 .php)
  | 0x09 => some (.f2 .oraImm)
  | 0x0A => some (.f1 .aslAcc)
  | 0x0D => some (.f3 .oraAbs)
  | 0x0E => some (.f3 .aslAbs)
  | 0x10 => some (.f2 .bpl)
  | 0x11 => some (.f2 .oraIndY)
  | 0x12 => some (.f1 .clt)
  | 0x15 => some (.f2 .oraZpX)
  | 0x16 => some (.f2 .aslZpX)
  | 0x18 => some (.f1 .clc)
  | 0x19 => some (.f3 .oraAbsY)
  | 0x1A => some (.f1 .decAcc)
  | 0x1D => some (.f3 .oraAbsX)
  | 0x1E => some (.f3 .aslAbsX)
  | 0x20 => some (.f3 .jsrAbs)
  | 0x21 => some (.f2 .andIndX)
  | 0x22 => some (.f2 .jsrSpecial)
  | 0x24 => some (.f2 .bitZp)
  | 0x25 => some (.f2 .andZp)
  | 0x26 => some (.f2 .rolZp)
  | 0x28 => some (.f1 .plp)
  | 0x29 => some (.f2 .andImm)
  | 0x2A => some (.f1 .rolAcc)
  | 0x2C => some (.f3 .bitAbs)
  | 0x2D => some (.f3 .andAbs)
  | 0x2E => some (.f3 .rolAbs)
  | 0x30 => some (.f2 .bmi)
  | 0x31 => some (.f2 .andIndY)
  | 0x32 => some (.f1 .set)
  | 0x35 => some (.f2 .andZpX)
  | 0x36 => some (.f2 .rolZpX)
  | 0x38 => some (.f1 .sec)
  | 0x39 => some (.f3 .andAbsY)
  | 0x3A => some (.f1 .incAcc)
  | 0x3C => some (.f3 .ldmZp)
  | 0x3D => some (.f3 .andAbsX)
  | 0x3E => some (.f3 .rolAbsX)
  | 0x40 => some (.f1 .rti)
  | 0x41 => some (.f2 .eorIndX)
  | 0x42 => some (.f1 .stp)
  | 0x44 => some (.f2 .comZp)
  | 0x45 => some (.f2 .eorZp)
  | 0x46 => some (.f2 .lsrZp)
  | 0x48 => some (.f1 .pha)
  | 0x49 => some (.f2 .eorImm)
  | 0x4A => some (.f1 .lsrAcc)
  | 0x4C => some (.f3 .jmpAbs)
  | 0x4D => some (.f3 .eorAbs)
  | 0x4E => some (.f3 .lsrAbs)
  | 0x50 => some (.f2 .bvc)
  | 0x51 => some (.f2 .eorIndY)
  | 0x55 => some (.f2 .eorZpX)
  | 0x56 => some (.f2 .lsrZpX)
  | 0x58 => some (.f1 .cli)
  | 0x59 => some (.f3 .eorAbsY)
  | 0x5D => some (.f3 .eorAbsX)
  | 0x5E => some (.f3 .lsrAbsX)
  | 0x60 => some (.f1 .rts)
  | 0x61 => some (.f2 .adcIndX)
  | 0x62 => some (.f2 .mulZpX)
  | 0x64 => some (.f2 .tstZp)
  | 0x65 => some (.f2 .adcZp)
  | 0x66 => some (.f2 .rorZp)
  | 0x68 => some (.f1 .pla)
  | 0x69 => some (.f2 .adcImm)
  | 0x6A => some (.f1 .rorAcc)
  | 0x6C => some (.f3 .jmpInd)
  | 0x6D => some (.f3 .adcAbs)
  | 0x6E => some (.f3 .rorAbs)
  | 0x70 => some (.f2 .bvs)
  | 0x71 => some (.f2 .adcIndY)
  | 0x75 => some (.f2 .adcZpX)
  | 0x76 => some (.f2 .rorZpX)
  | 0x78 => some (.f1 .sei)
  | 0x79 => some (.f3 .adcAbsY)
  | 0x7D => some (.f3 .adcAbsX)
  | 0x7E => some (.f3 .rorAbsX)
  | 0x80 => some (.f2 .bra)
  | 0x81 => some (.f2 .staIndX)
  | 0x82 => some (.f2 .rrfZp)
  | 0x84 => some (.f2 .styZp)
  | 0x85 => some (.f2 .staZp)
  | 0x86 => some (.f2 .stxZp)
  | 0x88 => some (.f1 .dey)
  | 0x8A => some (.f1 .txa)
  | 0x8C => some (.f3 .styAbs)
  | 0x8D => some (.f3 .staAbs)
  | 0x8E => some (.f3 .stxAbs)
  | 0x90 => some (.f2 .bcc)
  | 0x91 => some (.f2 .staIndY)
  | 0x94 => some (.f2 .styZpX)
  | 0x95 => some (.f2 .staZpX)
  | 0x96 => some (.f2 .stxZpY)
  | 0x98 => some (.f1 .tya)
  | 0x99 => some (.f3 .staAbsY)
  | 0x9A => some (.f1 .txs)
  | 0x9D => some (.f3 .staAbsX)
  | 0xA0 => some (.f2 .ldyImm)
  | 0xA1 => some (.f2 .ldaIndX)
  | 0xA2 => some (.f2 .ldxImm)
  | 0xA4 => some (.f2 .ldyZp)
  | 0xA5 => some (.f2 .ldaZp)
  | 0xA6 => some (.f2 .ldxZp)
  | 0xA8 => some (.f1 .tay)
  | 0xA9 => some (.f2 .ldaImm)
  | 0xAA => some (.f1 .tax)
  | 0xAC => some (.f3 .ldyAbs)
  | 0xAD => some (.f3 .ldaAbs)
  | 0xAE => some (.f3 .ldxAbs)
  | 0xB0 => some (.f2 .bcs)
  | 0xB1 => some (.f2 .ldaIndY)
  | 0xB2 => some (.f2 .jmpZpInd)
  | 0xB4 => some (.f2 .ldyZpX)
  | 0xB5 => some (.f2 .ldaZpX)
  | 0xB6 => some (.f2 .ldxZpY)
  | 0xB8 => some (.f1 .clv)
  | 0xB9 => some (.f3 .ldaAbsY)
  | 0xBA => some (.f1 .tsx)
  | 0xBC => some (.f3 .ldyAbsX)
  | 0xBD => some (.f3 .ldaAbsX)
  | 0xBE => some (.f3 .ldxAbsY)
  | 0xC0 => some (.f2 .cpyImm)
  | 0xC1 => some (.f2 .cmpIndX)
  | 0xC2 => some (.f1 .wit)
  | 0xC4 => some (.f2 .cpyZp)
  | 0xC5 => some (.f2 .cmpZp)
  | 0xC6 => some (.f2 .decZp)
  | 0xC8 => some (.f1 .iny)
  | 0xC9 => some (.f2 .cmpImm)
  | 0xCA => some (.f1 .dex)
  | 0xCC => some (.f3 .cpyAbs)
  | 0xCD => some (.f3 .cmpAbs)
  | 0xCE => some (.f3 .decAbs)
  | 0xD0 => some (.f2 .bne)
  | 0xD1 => some (.f2 .cmpIndY)
  | 0xD5 => some (.f2 .cmpZpX)
  | 0xD6 => some (.f2 .decZpX)
  | 0xD8 => some (.f1 .cld)
  | 0xD9 => some (.f3 .cmpAbsY)
  | 0xDD => some (.f3 .cmpAbsX)
  | 0xDE => some (.f3 .decAbsX)
  | 0xE0 => some (.f2 .cpxImm)
  | 0xE1 => some (.f2 .sbcIndX)
  | 0xE2 => some (.f2 .divZpX)
  | 0xE4 => some (.f2 .cpxZp)
  | 0xE5 => some (.f2 .sbcZp)
  | 0xE6 => some (.f2 .incZp)
  | 0xE8 => some (.f1 .inx)
  | 0xE9 => some (.f2 .sbcImm)
  | 0xEA => some (.f1 .nop)
  | 0xEC => some (.f3 .cpxAbs)
  | 0xED => some (.f3 .sbcAbs)
  | 0xEE => some (.f3 .incAbs)
  | 0xF0 => some (.f2 .beq)
  | 0xF1 => some (.f2 .sbcIndY)
  | 0xF5 => some (.f2 .sbcZpX)
  | 0xF6 => some (.f2 .incZpX)
  | 0xF8 => some (.f1 .sed)
  | 0xF9 => some (.f3 .sbcAbsY)
  | 0xFD => some (.f3 .sbcAbsX)
  | 0xFE => some (.f3 .incAbsX)
  | _ => none

/-- What an op-code byte says. The 64 op-codes with `op[1:0] = 0b11` are BBS, SEB, BBC and CLB with the bit number
`op[7:5]`, told apart by `op[4:0]` (R94, R97); every other op-code is looked up whole (R95). -/
def opShape (op : Byte) : Option Shape :=
  let i := op.toNat / 32
  match op.toNat % 32 with
  | 0x03 => some (.f2 (.bbsAcc i))
  | 0x07 => some (.f3 (.bbsZp i))
  | 0x0B => some (.f1 (.sebAcc i))
  | 0x0F => some (.f2 (.sebZp i))
  | 0x13 => some (.f2 (.bbcAcc i))
  | 0x17 => some (.f3 (.bbcZp i))
  | 0x1B => some (.f1 (.clbAcc i))
  | 0x1F => some (.f2 (.clbZp i))
  | _ => fixedShape op.toNat

/-- Decoding is total on any bytes: an instruction and the bytes after it, or why there is none (R94). -/
def decodeBytes : List Byte → Except DecodeError (Instr × List Byte)
  | [] => .error .truncated
  | op :: rest =>
    match opShape op, rest with
    | none, _ => .error (.undefinedOpcode op)
    | some (.f1 i), rest => .ok (i, rest)
    | some (.f2 f), o1 :: rest => .ok (f o1, rest)
    | some (.f3 f), o1 :: o2 :: rest => .ok (f o1 o2, rest)
    | some _, _ => .error .truncated

/-- The op-code byte of a bit instruction: `0x20 × i` and the instruction's low five bits (R97). -/
def bitOpcode (i low : Nat) : Byte := BitVec.ofNat 8 (0x20 * i + low)

/-- The bytes of an instruction in address order, from the machine-code columns of the instructions' rules. -/
def encode : Instr → List Byte
  | .ldaImm nn => [0xA9, nn]
  | .ldaZp zz => [0xA5, zz]
  | .ldaZpX zz => [0xB5, zz]
  | .ldaAbs ll hh => [0xAD, ll, hh]
  | .ldaAbsX ll hh => [0xBD, ll, hh]
  | .ldaAbsY ll hh => [0xB9, ll, hh]
  | .ldaIndX zz => [0xA1, zz]
  | .ldaIndY zz => [0xB1, zz]
  | .ldmZp nn zz => [0x3C, nn, zz]
  | .ldxImm nn => [0xA2, nn]
  | .ldxZp zz => [0xA6, zz]
  | .ldxZpY zz => [0xB6, zz]
  | .ldxAbs ll hh => [0xAE, ll, hh]
  | .ldxAbsY ll hh => [0xBE, ll, hh]
  | .ldyImm nn => [0xA0, nn]
  | .ldyZp zz => [0xA4, zz]
  | .ldyZpX zz => [0xB4, zz]
  | .ldyAbs ll hh => [0xAC, ll, hh]
  | .ldyAbsX ll hh => [0xBC, ll, hh]
  | .staZp zz => [0x85, zz]
  | .staZpX zz => [0x95, zz]
  | .staAbs ll hh => [0x8D, ll, hh]
  | .staAbsX ll hh => [0x9D, ll, hh]
  | .staAbsY ll hh => [0x99, ll, hh]
  | .staIndX zz => [0x81, zz]
  | .staIndY zz => [0x91, zz]
  | .stxZp zz => [0x86, zz]
  | .stxZpY zz => [0x96, zz]
  | .stxAbs ll hh => [0x8E, ll, hh]
  | .styZp zz => [0x84, zz]
  | .styZpX zz => [0x94, zz]
  | .styAbs ll hh => [0x8C, ll, hh]
  | .tax => [0xAA]
  | .txa => [0x8A]
  | .tay => [0xA8]
  | .tya => [0x98]
  | .tsx => [0xBA]
  | .txs => [0x9A]
  | .pha => [0x48]
  | .php => [0x08]
  | .pla => [0x68]
  | .plp => [0x28]
  | .adcImm nn => [0x69, nn]
  | .adcZp zz => [0x65, zz]
  | .adcZpX zz => [0x75, zz]
  | .adcAbs ll hh => [0x6D, ll, hh]
  | .adcAbsX ll hh => [0x7D, ll, hh]
  | .adcAbsY ll hh => [0x79, ll, hh]
  | .adcIndX zz => [0x61, zz]
  | .adcIndY zz => [0x71, zz]
  | .sbcImm nn => [0xE9, nn]
  | .sbcZp zz => [0xE5, zz]
  | .sbcZpX zz => [0xF5, zz]
  | .sbcAbs ll hh => [0xED, ll, hh]
  | .sbcAbsX ll hh => [0xFD, ll, hh]
  | .sbcAbsY ll hh => [0xF9, ll, hh]
  | .sbcIndX zz => [0xE1, zz]
  | .sbcIndY zz => [0xF1, zz]
  | .incAcc => [0x3A]
  | .incZp zz => [0xE6, zz]
  | .incZpX zz => [0xF6, zz]
  | .incAbs ll hh => [0xEE, ll, hh]
  | .incAbsX ll hh => [0xFE, ll, hh]
  | .decAcc => [0x1A]
  | .decZp zz => [0xC6, zz]
  | .decZpX zz => [0xD6, zz]
  | .decAbs ll hh => [0xCE, ll, hh]
  | .decAbsX ll hh => [0xDE, ll, hh]
  | .inx => [0xE8]
  | .dex => [0xCA]
  | .iny => [0xC8]
  | .dey => [0x88]
  | .mulZpX zz => [0x62, zz]
  | .divZpX zz => [0xE2, zz]
  | .andImm nn => [0x29, nn]
  | .andZp zz => [0x25, zz]
  | .andZpX zz => [0x35, zz]
  | .andAbs ll hh => [0x2D, ll, hh]
  | .andAbsX ll hh => [0x3D, ll, hh]
  | .andAbsY ll hh => [0x39, ll, hh]
  | .andIndX zz => [0x21, zz]
  | .andIndY zz => [0x31, zz]
  | .oraImm nn => [0x09, nn]
  | .oraZp zz => [0x05, zz]
  | .oraZpX zz => [0x15, zz]
  | .oraAbs ll hh => [0x0D, ll, hh]
  | .oraAbsX ll hh => [0x1D, ll, hh]
  | .oraAbsY ll hh => [0x19, ll, hh]
  | .oraIndX zz => [0x01, zz]
  | .oraIndY zz => [0x11, zz]
  | .eorImm nn => [0x49, nn]
  | .eorZp zz => [0x45, zz]
  | .eorZpX zz => [0x55, zz]
  | .eorAbs ll hh => [0x4D, ll, hh]
  | .eorAbsX ll hh => [0x5D, ll, hh]
  | .eorAbsY ll hh => [0x59, ll, hh]
  | .eorIndX zz => [0x41, zz]
  | .eorIndY zz => [0x51, zz]
  | .comZp zz => [0x44, zz]
  | .bitZp zz => [0x24, zz]
  | .bitAbs ll hh => [0x2C, ll, hh]
  | .tstZp zz => [0x64, zz]
  | .cmpImm nn => [0xC9, nn]
  | .cmpZp zz => [0xC5, zz]
  | .cmpZpX zz => [0xD5, zz]
  | .cmpAbs ll hh => [0xCD, ll, hh]
  | .cmpAbsX ll hh => [0xDD, ll, hh]
  | .cmpAbsY ll hh => [0xD9, ll, hh]
  | .cmpIndX zz => [0xC1, zz]
  | .cmpIndY zz => [0xD1, zz]
  | .cpxImm nn => [0xE0, nn]
  | .cpxZp zz => [0xE4, zz]
  | .cpxAbs ll hh => [0xEC, ll, hh]
  | .cpyImm nn => [0xC0, nn]
  | .cpyZp zz => [0xC4, zz]
  | .cpyAbs ll hh => [0xCC, ll, hh]
  | .aslAcc => [0x0A]
  | .aslZp zz => [0x06, zz]
  | .aslZpX zz => [0x16, zz]
  | .aslAbs ll hh => [0x0E, ll, hh]
  | .aslAbsX ll hh => [0x1E, ll, hh]
  | .lsrAcc => [0x4A]
  | .lsrZp zz => [0x46, zz]
  | .lsrZpX zz => [0x56, zz]
  | .lsrAbs ll hh => [0x4E, ll, hh]
  | .lsrAbsX ll hh => [0x5E, ll, hh]
  | .rolAcc => [0x2A]
  | .rolZp zz => [0x26, zz]
  | .rolZpX zz => [0x36, zz]
  | .rolAbs ll hh => [0x2E, ll, hh]
  | .rolAbsX ll hh => [0x3E, ll, hh]
  | .rorAcc => [0x6A]
  | .rorZp zz => [0x66, zz]
  | .rorZpX zz => [0x76, zz]
  | .rorAbs ll hh => [0x6E, ll, hh]
  | .rorAbsX ll hh => [0x7E, ll, hh]
  | .rrfZp zz => [0x82, zz]
  | .clbZp i zz => [bitOpcode i 0x1F, zz]
  | .clbAcc i => [bitOpcode i 0x1B]
  | .sebZp i zz => [bitOpcode i 0x0F, zz]
  | .sebAcc i => [bitOpcode i 0x0B]
  | .clc => [0x18]
  | .sec => [0x38]
  | .cld => [0xD8]
  | .sed => [0xF8]
  | .cli => [0x58]
  | .sei => [0x78]
  | .clt => [0x12]
  | .set => [0x32]
  | .clv => [0xB8]
  | .jmpAbs ll hh => [0x4C, ll, hh]
  | .jmpInd ll hh => [0x6C, ll, hh]
  | .jmpZpInd zz => [0xB2, zz]
  | .bra rr => [0x80, rr]
  | .jsrAbs ll hh => [0x20, ll, hh]
  | .jsrZpInd zz => [0x02, zz]
  | .jsrSpecial ll => [0x22, ll]
  | .bbcAcc i rr => [bitOpcode i 0x13, rr]
  | .bbcZp i zz rr => [bitOpcode i 0x17, zz, rr]
  | .bbsAcc i rr => [bitOpcode i 0x03, rr]
  | .bbsZp i zz rr => [bitOpcode i 0x07, zz, rr]
  | .bcc rr => [0x90, rr]
  | .bcs rr => [0xB0, rr]
  | .bne rr => [0xD0, rr]
  | .beq rr => [0xF0, rr]
  | .bpl rr => [0x10, rr]
  | .bmi rr => [0x30, rr]
  | .bvc rr => [0x50, rr]
  | .bvs rr => [0x70, rr]
  | .rts => [0x60]
  | .rti => [0x40]
  | .brk => [0x00]
  | .wit => [0xC2]
  | .stp => [0x42]
  | .nop => [0xEA]

/-- How many bytes an instruction takes: the "Byte number" of its page (R92). -/
def Instr.length (i : Instr) : Nat := (encode i).length

/-- Byte number `k` of the number `w`, bit 0 of `w` being the least significant bit of byte 0. -/
def byteOf (w k : Nat) : Byte := BitVec.ofNat 8 (w / 256 ^ k)

/-- The bytes of a table word of `nbits` bits: the first three bytes, every bit above `nbits` being 0. -/
def tableBytes (nbits w : Nat) : List Byte :=
  let v := w % 2 ^ nbits
  [byteOf v 0, byteOf v 1, byteOf v 2]

/-- The instruction the decoder reads from an instruction whose bits are `w`, numbered as the op-code table numbers
them; `none` where the decoder rejects it. -/
def decodeTableWord (nbits w : Nat) : Option Instr :=
  match decodeBytes (tableBytes nbits w) with
  | .ok (i, _) => some i
  | .error _ => none

end Sys2Proof
end

