-- ==== Sys2Proof/Machine/Operands.lean ====
section
/-! DEFINITION. The operand forms: the effective address of every mode that names a memory byte (R123 to R132), the
operand M of an instruction that reads it (R121), and the first operand of the seven instructions that the T flag
switches to M(X) (R141). Forming an effective address changes nothing (R120). -/

namespace Sys2Proof.Machine

open Sys2Proof

/-- The addressing modes with an effective address. -/
inductive EaMode where
  | zp (zz : Byte)
  | zpX (zz : Byte)
  | zpY (zz : Byte)
  | abs (ll hh : Byte)
  | absX (ll hh : Byte)
  | absY (ll hh : Byte)
  | indX (zz : Byte)
  | indY (zz : Byte)
  deriving DecidableEq, Repr

/-- `EA`, the effective address: a zero page index addition drops its carry, an absolute one is modulo 65536 (R120,
R123 to R128, R131, R132). -/
def EaMode.ea (m : EaMode) (s : State) : Addr :=
  match m with
  | .zp zz => zpAddr zz
  | .zpX zz => zpAddr (zz + s.x)
  | .zpY zz => zpAddr (zz + s.y)
  | .abs ll hh => join hh ll
  | .absX ll hh => join hh ll + zext16 s.x
  | .absY ll hh => join hh ll + zext16 s.y
  | .indX zz => s.read16zp (zz + s.x)
  | .indY zz => s.read16zp zz + zext16 s.y

/-- How many bytes an instruction in the mode takes: the absolute modes are format F3, the others F2 (R91). -/
def EaMode.len : EaMode → Nat
  | .zp _ | .zpX _ | .zpY _ | .indX _ | .indY _ => 2
  | .abs _ _ | .absX _ _ | .absY _ _ => 3

/-- The operand M of an instruction that reads it: immediate data, or the byte at an effective address (R120). -/
inductive Operand where
  | imm (nn : Byte)
  | mem (m : EaMode)
  deriving DecidableEq, Repr

/-- The value of the operand M (R121, R150). -/
def Operand.value (o : Operand) (s : State) : Byte :=
  match o with
  | .imm nn => nn
  | .mem m => s.read .operand (m.ea s)

/-- How many bytes an instruction with the operand takes (R91). -/
def Operand.len : Operand → Nat
  | .imm _ => 2
  | .mem m => m.len

/-- The first operand of ADC, AND, CMP, EOR, ORA and SBC: A, or M(X) when `PS.T = 1` (R141). -/
def State.firstOperand (s : State) : Byte := if s.flag .t then s.read .mx (zpAddr s.x) else s.a

/-- The destination of ADC, AND, EOR, LDA, ORA and SBC: A, or M(X) with A unchanged when `PS.T = 1` (R141). -/
def State.putResult (s : State) (r : Byte) : State :=
  if s.flag .t then s.write (zpAddr s.x) r else { s with a := r }

end Sys2Proof.Machine
end

