-- ==== Sys2Proof/Machine/Arithmetic.lean ====
section
/-! DEFINITION. The arithmetic instructions (`42_arithmetic.md`): addition and subtraction in binary and decimal,
increment and decrement, multiplication and division. One definition for each instruction, over the shared operations
that open the file. -/

namespace Sys2Proof.Machine

open Sys2Proof Sys2Proof.Config

/-- The result and flags of ADC on its two operands: decimal when `PS.D = 1` (R181, R183). -/
def State.addOut (s : State) (d m : Byte) : ArithOut :=
  if s.flag .d then addDecimal s.draws d m (s.flag .c) else addBinary d m (s.flag .c)

/-- The result and flags of SBC on its two operands: decimal when `PS.D = 1` (R182, R183). -/
def State.subOut (s : State) (d m : Byte) : ArithOut :=
  if s.flag .d then subDecimal s.draws d m (s.flag .c) else subBinary d m (s.flag .c)

/-- ADC: the destination is A, or M(X) when `PS.T = 1` (R180, R181). -/
def State.adc (s : State) (o : Operand) : State :=
  let out := s.addOut s.firstOperand (o.value s)
  ((s.putResult out.result).setArith out).advance o.len

/-- SBC: the destination is A, or M(X) when `PS.T = 1` (R180, R182). -/
def State.sbc (s : State) (o : Operand) : State :=
  let out := s.subOut s.firstOperand (o.value s)
  ((s.putResult out.result).setArith out).advance o.len

/-- A read-modify-write of the byte at an effective address that sets N and Z of the result: INC, DEC and COM (R70,
R184, R185, R204). -/
def State.modifyNZ (s : State) (m : EaMode) (f : Byte → Byte) : State :=
  let r := f ((Operand.mem m).value s)
  ((s.write (m.ea s) r).setNZ r).advance m.len

/-- MUL: the high byte of the product is pushed, the low byte goes to A; no flag changes (R188). -/
def State.multiply (s : State) (zz : Byte) : State :=
  let p := product s.a ((Operand.mem (.zpX zz)).value s)
  { s.push (hiByte p) with a := loByte p }.advance 2

/-- The dividend of DIV: the low byte at `zz+X`, the high byte at the next zero page location (R189). -/
def State.dividend (s : State) (zz : Byte) : Addr :=
  join (s.read .dividendHi (zpAddr (zz + s.x + 1))) (s.read .operand (zpAddr (zz + s.x)))

/-- DIV: the one's complement of the remainder is pushed and the quotient goes to A. For a divisor of zero or a quotient
above 255 both bytes are arbitrary; `S` is decremented in every case, and no flag changes (R189; log entry 16). -/
def State.divideBy (s : State) (zz : Byte) : State :=
  match divide (s.dividend zz) s.a with
  | some (q, r) => { s.push (~~~ r) with a := q }.advance 2
  | none => { s.push (anyByte s.draws .remainder) with a := anyByte s.draws .quotient }.advance 2

/-! ### ADC (R181) -/

/-- `ADC #$nn` (R181). -/
def execAdcImm (nn : Byte) (s : State) : Result := .next (s.adc (.imm nn))

/-- `ADC $zz` (R181). -/
def execAdcZp (zz : Byte) (s : State) : Result := .next (s.adc (.mem (.zp zz)))

/-- `ADC $zz,X` (R181). -/
def execAdcZpX (zz : Byte) (s : State) : Result := .next (s.adc (.mem (.zpX zz)))

/-- `ADC $hhll` (R181). -/
def execAdcAbs (ll hh : Byte) (s : State) : Result := .next (s.adc (.mem (.abs ll hh)))

/-- `ADC $hhll,X` (R181). -/
def execAdcAbsX (ll hh : Byte) (s : State) : Result := .next (s.adc (.mem (.absX ll hh)))

/-- `ADC $hhll,Y` (R181). -/
def execAdcAbsY (ll hh : Byte) (s : State) : Result := .next (s.adc (.mem (.absY ll hh)))

/-- `ADC ($zz,X)` (R181). -/
def execAdcIndX (zz : Byte) (s : State) : Result := .next (s.adc (.mem (.indX zz)))

/-- `ADC ($zz),Y` (R181). -/
def execAdcIndY (zz : Byte) (s : State) : Result := .next (s.adc (.mem (.indY zz)))

/-! ### SBC (R182) -/

/-- `SBC #$nn` (R182). -/
def execSbcImm (nn : Byte) (s : State) : Result := .next (s.sbc (.imm nn))

/-- `SBC $zz` (R182). -/
def execSbcZp (zz : Byte) (s : State) : Result := .next (s.sbc (.mem (.zp zz)))

/-- `SBC $zz,X` (R182). -/
def execSbcZpX (zz : Byte) (s : State) : Result := .next (s.sbc (.mem (.zpX zz)))

/-- `SBC $hhll` (R182). -/
def execSbcAbs (ll hh : Byte) (s : State) : Result := .next (s.sbc (.mem (.abs ll hh)))

/-- `SBC $hhll,X` (R182). -/
def execSbcAbsX (ll hh : Byte) (s : State) : Result := .next (s.sbc (.mem (.absX ll hh)))

/-- `SBC $hhll,Y` (R182). -/
def execSbcAbsY (ll hh : Byte) (s : State) : Result := .next (s.sbc (.mem (.absY ll hh)))

/-- `SBC ($zz,X)` (R182). -/
def execSbcIndX (zz : Byte) (s : State) : Result := .next (s.sbc (.mem (.indX zz)))

/-- `SBC ($zz),Y` (R182). -/
def execSbcIndY (zz : Byte) (s : State) : Result := .next (s.sbc (.mem (.indY zz)))

/-! ### INC (R184) -/

/-- `INC A` (R184). -/
def execIncAcc (s : State) : Result := .next (({ s with a := s.a + 1 }.setNZ (s.a + 1)).advance 1)

/-- `INC $zz` (R184). -/
def execIncZp (zz : Byte) (s : State) : Result := .next (s.modifyNZ (.zp zz) (· + 1))

/-- `INC $zz,X` (R184). -/
def execIncZpX (zz : Byte) (s : State) : Result := .next (s.modifyNZ (.zpX zz) (· + 1))

/-- `INC $hhll` (R184). -/
def execIncAbs (ll hh : Byte) (s : State) : Result := .next (s.modifyNZ (.abs ll hh) (· + 1))

/-- `INC $hhll,X` (R184). -/
def execIncAbsX (ll hh : Byte) (s : State) : Result := .next (s.modifyNZ (.absX ll hh) (· + 1))

/-! ### DEC (R185) -/

/-- `DEC A` (R185). -/
def execDecAcc (s : State) : Result := .next (({ s with a := s.a - 1 }.setNZ (s.a - 1)).advance 1)

/-- `DEC $zz` (R185). -/
def execDecZp (zz : Byte) (s : State) : Result := .next (s.modifyNZ (.zp zz) (· - 1))

/-- `DEC $zz,X` (R185). -/
def execDecZpX (zz : Byte) (s : State) : Result := .next (s.modifyNZ (.zpX zz) (· - 1))

/-- `DEC $hhll` (R185). -/
def execDecAbs (ll hh : Byte) (s : State) : Result := .next (s.modifyNZ (.abs ll hh) (· - 1))

/-- `DEC $hhll,X` (R185). -/
def execDecAbsX (ll hh : Byte) (s : State) : Result := .next (s.modifyNZ (.absX ll hh) (· - 1))

/-! ### INX (R186) -/

/-- `INX` (R186). -/
def execInx (s : State) : Result := .next (({ s with x := s.x + 1 }.setNZ (s.x + 1)).advance 1)

/-! ### DEX (R187) -/

/-- `DEX` (R187). -/
def execDex (s : State) : Result := .next (({ s with x := s.x - 1 }.setNZ (s.x - 1)).advance 1)

/-! ### INY (R190) -/

/-- `INY` (R190). -/
def execIny (s : State) : Result := .next (({ s with y := s.y + 1 }.setNZ (s.y + 1)).advance 1)

/-! ### DEY (R191) -/

/-- `DEY` (R191). -/
def execDey (s : State) : Result := .next (({ s with y := s.y - 1 }.setNZ (s.y - 1)).advance 1)

/-! ### MUL (R188) -/

/-- `MUL $zz,X`: an undefined op-code on a product without it (R188). -/
def execMulZpX (zz : Byte) (s : State) : Result :=
  if s.cfg.hasMulDiv then .next (s.multiply zz) else .refused (.undefinedOpcode 0x62)

/-! ### DIV (R189) -/

/-- `DIV $zz,X`: an undefined op-code on a product without it (R189). -/
def execDivZpX (zz : Byte) (s : State) : Result :=
  if s.cfg.hasMulDiv then .next (s.divideBy zz) else .refused (.undefinedOpcode 0xE2)

end Sys2Proof.Machine
end

