-- ==== Sys2Proof/Machine/BitFlag.lean ====
section
/-! DEFINITION. The bit managing and flag setting instructions (`44_bit_and_flag.md`). One definition for each
instruction, over the shared operations that open the file. -/

namespace Sys2Proof.Machine

open Sys2Proof Sys2Proof.Config

/-- CLB and SEB on A: one bit of A is written; no flag changes (R231, R232). -/
def State.bitAcc (s : State) (i : Nat) (b : Bool) : State := { s with a := withBit s.a i b }.advance 1

/-- CLB and SEB on a zero page byte, a read-modify-write of the whole byte; no flag changes (R70, R231, R232). -/
def State.bitMem (s : State) (i : Nat) (zz : Byte) (b : Bool) : State :=
  (s.write (zpAddr zz) (withBit ((Operand.mem (.zp zz)).value s) i b)).advance 2

/-- A flag setting instruction: one flag is written (`44_bit_and_flag.md`, section 2). -/
def State.flagInstr (s : State) (f : Flag) (b : Bool) : State := (s.setFlag f b).advance 1

/-! ### CLB (R231) -/

/-- `CLB i,$zz` (R231). -/
def execClbZp (i : Nat) (zz : Byte) (s : State) : Result := .next (s.bitMem i zz false)

/-- `CLB i,A` (R231). -/
def execClbAcc (i : Nat) (s : State) : Result := .next (s.bitAcc i false)

/-! ### SEB (R232) -/

/-- `SEB i,$zz` (R232). -/
def execSebZp (i : Nat) (zz : Byte) (s : State) : Result := .next (s.bitMem i zz true)

/-- `SEB i,A` (R232). -/
def execSebAcc (i : Nat) (s : State) : Result := .next (s.bitAcc i true)

/-! ### CLC (R233) -/

/-- `CLC` (R233). -/
def execClc (s : State) : Result := .next (s.flagInstr .c false)

/-! ### SEC (R234) -/

/-- `SEC` (R234). -/
def execSec (s : State) : Result := .next (s.flagInstr .c true)

/-! ### CLD (R235) -/

/-- `CLD` (R235). -/
def execCld (s : State) : Result := .next (s.flagInstr .d false)

/-! ### SED (R236) -/

/-- `SED` (R236). -/
def execSed (s : State) : Result := .next (s.flagInstr .d true)

/-! ### CLI (R237) -/

/-- `CLI` (R237). -/
def execCli (s : State) : Result := .next (s.flagInstr .i false)

/-! ### SEI (R238) -/

/-- `SEI` (R238). -/
def execSei (s : State) : Result := .next (s.flagInstr .i true)

/-! ### CLT (R239) -/

/-- `CLT` (R239). -/
def execClt (s : State) : Result := .next (s.flagInstr .t false)

/-! ### SET (R240) -/

/-- `SET` (R240). -/
def execSet (s : State) : Result := .next (s.flagInstr .t true)

/-! ### CLV (R241) -/

/-- `CLV` (R241). -/
def execClv (s : State) : Result := .next (s.flagInstr .v false)

end Sys2Proof.Machine
end

