-- ==== Sys2Proof/Machine/DataTransfer.lean ====
section
/-! DEFINITION. The data transfer instructions (`41_data_transfer.md`): load, store, transfer and stack operation. One
definition for each instruction, over the shared operations that open the file. -/

namespace Sys2Proof.Machine

open Sys2Proof Sys2Proof.Config

/-- LDA: A, or M(X) when `PS.T = 1`, takes the operand; M(X) is not read first (R151). -/
def State.load (s : State) (o : Operand) : State :=
  ((s.putResult (o.value s)).setNZ (o.value s)).advance o.len

/-- LDX: X takes the operand (R153). -/
def State.loadX (s : State) (o : Operand) : State :=
  ({ s with x := o.value s }.setNZ (o.value s)).advance o.len

/-- LDY: Y takes the operand (R154). -/
def State.loadY (s : State) (o : Operand) : State :=
  ({ s with y := o.value s }.setNZ (o.value s)).advance o.len

/-- STA, STX and STY: a register's byte is written at the effective address, which is not read; no flag changes (R155,
R156, R157). -/
def State.store (s : State) (m : EaMode) (v : Byte) : State := (s.write (m.ea s) v).advance m.len

/-! ### LDA (R151) -/

/-- `LDA #$nn` (R151). -/
def execLdaImm (nn : Byte) (s : State) : Result := .next (s.load (.imm nn))

/-- `LDA $zz` (R151). -/
def execLdaZp (zz : Byte) (s : State) : Result := .next (s.load (.mem (.zp zz)))

/-- `LDA $zz,X` (R151). -/
def execLdaZpX (zz : Byte) (s : State) : Result := .next (s.load (.mem (.zpX zz)))

/-- `LDA $hhll` (R151). -/
def execLdaAbs (ll hh : Byte) (s : State) : Result := .next (s.load (.mem (.abs ll hh)))

/-- `LDA $hhll,X` (R151). -/
def execLdaAbsX (ll hh : Byte) (s : State) : Result := .next (s.load (.mem (.absX ll hh)))

/-- `LDA $hhll,Y` (R151). -/
def execLdaAbsY (ll hh : Byte) (s : State) : Result := .next (s.load (.mem (.absY ll hh)))

/-- `LDA ($zz,X)` (R151). -/
def execLdaIndX (zz : Byte) (s : State) : Result := .next (s.load (.mem (.indX zz)))

/-- `LDA ($zz),Y` (R151). -/
def execLdaIndY (zz : Byte) (s : State) : Result := .next (s.load (.mem (.indY zz)))

/-! ### LDM (R152) -/

/-- `LDM #$nn,$zz`: the first operand byte is written at the zero page address in the second; no flag changes (R152). -/
def execLdmZp (nn zz : Byte) (s : State) : Result := .next ((s.write (zpAddr zz) nn).advance 3)

/-! ### LDX (R153) -/

/-- `LDX #$nn` (R153). -/
def execLdxImm (nn : Byte) (s : State) : Result := .next (s.loadX (.imm nn))

/-- `LDX $zz` (R153). -/
def execLdxZp (zz : Byte) (s : State) : Result := .next (s.loadX (.mem (.zp zz)))

/-- `LDX $zz,Y` (R153). -/
def execLdxZpY (zz : Byte) (s : State) : Result := .next (s.loadX (.mem (.zpY zz)))

/-- `LDX $hhll` (R153). -/
def execLdxAbs (ll hh : Byte) (s : State) : Result := .next (s.loadX (.mem (.abs ll hh)))

/-- `LDX $hhll,Y` (R153). -/
def execLdxAbsY (ll hh : Byte) (s : State) : Result := .next (s.loadX (.mem (.absY ll hh)))

/-! ### LDY (R154) -/

/-- `LDY #$nn` (R154). -/
def execLdyImm (nn : Byte) (s : State) : Result := .next (s.loadY (.imm nn))

/-- `LDY $zz` (R154). -/
def execLdyZp (zz : Byte) (s : State) : Result := .next (s.loadY (.mem (.zp zz)))

/-- `LDY $zz,X` (R154). -/
def execLdyZpX (zz : Byte) (s : State) : Result := .next (s.loadY (.mem (.zpX zz)))

/-- `LDY $hhll` (R154). -/
def execLdyAbs (ll hh : Byte) (s : State) : Result := .next (s.loadY (.mem (.abs ll hh)))

/-- `LDY $hhll,X` (R154). -/
def execLdyAbsX (ll hh : Byte) (s : State) : Result := .next (s.loadY (.mem (.absX ll hh)))

/-! ### STA (R155) -/

/-- `STA $zz` (R155). -/
def execStaZp (zz : Byte) (s : State) : Result := .next (s.store (.zp zz) s.a)

/-- `STA $zz,X` (R155). -/
def execStaZpX (zz : Byte) (s : State) : Result := .next (s.store (.zpX zz) s.a)

/-- `STA $hhll` (R155). -/
def execStaAbs (ll hh : Byte) (s : State) : Result := .next (s.store (.abs ll hh) s.a)

/-- `STA $hhll,X` (R155). -/
def execStaAbsX (ll hh : Byte) (s : State) : Result := .next (s.store (.absX ll hh) s.a)

/-- `STA $hhll,Y` (R155). -/
def execStaAbsY (ll hh : Byte) (s : State) : Result := .next (s.store (.absY ll hh) s.a)

/-- `STA ($zz,X)` (R155). -/
def execStaIndX (zz : Byte) (s : State) : Result := .next (s.store (.indX zz) s.a)

/-- `STA ($zz),Y` (R155). -/
def execStaIndY (zz : Byte) (s : State) : Result := .next (s.store (.indY zz) s.a)

/-! ### STX (R156) -/

/-- `STX $zz` (R156). -/
def execStxZp (zz : Byte) (s : State) : Result := .next (s.store (.zp zz) s.x)

/-- `STX $zz,Y` (R156). -/
def execStxZpY (zz : Byte) (s : State) : Result := .next (s.store (.zpY zz) s.x)

/-- `STX $hhll` (R156). -/
def execStxAbs (ll hh : Byte) (s : State) : Result := .next (s.store (.abs ll hh) s.x)

/-! ### STY (R157) -/

/-- `STY $zz` (R157). -/
def execStyZp (zz : Byte) (s : State) : Result := .next (s.store (.zp zz) s.y)

/-- `STY $zz,X` (R157). -/
def execStyZpX (zz : Byte) (s : State) : Result := .next (s.store (.zpX zz) s.y)

/-- `STY $hhll` (R157). -/
def execStyAbs (ll hh : Byte) (s : State) : Result := .next (s.store (.abs ll hh) s.y)

/-! ### TAX (R158) -/

/-- `TAX`: X takes A (R158). -/
def execTax (s : State) : Result := .next (({ s with x := s.a }.setNZ s.a).advance 1)

/-! ### TXA (R159) -/

/-- `TXA`: A takes X, whatever T is (R159). -/
def execTxa (s : State) : Result := .next (({ s with a := s.x }.setNZ s.x).advance 1)

/-! ### TAY (R160) -/

/-- `TAY`: Y takes A (R160). -/
def execTay (s : State) : Result := .next (({ s with y := s.a }.setNZ s.a).advance 1)

/-! ### TYA (R161) -/

/-- `TYA`: A takes Y, whatever T is (R161). -/
def execTya (s : State) : Result := .next (({ s with a := s.y }.setNZ s.y).advance 1)

/-! ### TSX (R162) -/

/-- `TSX`: X takes S (R162). -/
def execTsx (s : State) : Result := .next (({ s with x := s.sp }.setNZ s.sp).advance 1)

/-! ### TXS (R163) -/

/-- `TXS`: S takes X; no flag changes (R163). -/
def execTxs (s : State) : Result := .next ({ s with sp := s.x }.advance 1)

/-! ### PHA (R164) -/

/-- `PHA`: A is pushed; no flag changes (R164). -/
def execPha (s : State) : Result := .next ((s.push s.a).advance 1)

/-! ### PHP (R166) -/

/-- `PHP`: all eight bits of `PS` are pushed as they are (R166). -/
def execPhp (s : State) : Result := .next ((s.push s.ps).advance 1)

/-! ### PLA (R167) -/

/-- `PLA`: A takes the pulled byte (R167). -/
def execPla (s : State) : Result :=
  let p := s.pull .pull1
  .next (({ p.2 with a := p.1 }.setNZ p.1).advance 1)

/-! ### PLP (R168) -/

/-- `PLP`: all eight bits of `PS` take the pulled byte (R168). -/
def execPlp (s : State) : Result :=
  let p := s.pull .pull1
  .next ({ p.2 with ps := p.1 }.advance 1)

end Sys2Proof.Machine
end

