-- ==== Sys2Proof/Machine/JumpBranch.lean ====
section
/-! DEFINITION. The jump, branch and return instructions (`45_jump_branch_return.md`). One definition for each
instruction, over the shared operations that open the file. -/

namespace Sys2Proof.Machine

open Sys2Proof Sys2Proof.Config

/-- The pointer of `JMP ($hhll)`: the low byte at `hh:ll`, the high byte at the next address (R133). -/
def State.indirectTarget (s : State) (p : Addr) : Addr := s.read16 .pointerLo .pointerHi p

/-- A jump: PC takes the target. -/
def State.jump (s : State) (target : Addr) : State := { s with pc := target }

/-- JSR up to its jump: the address of the instruction's own last byte is pushed, high byte first (R253). -/
def State.call (s : State) (len : Nat) : State := s.push16 (s.pc + BitVec.ofNat 16 (len - 1))

/-- The third byte of `JSR $hhll`, which is fetched after the two pushes: `hh`, or what a push has put in its place
(R116, R253; log entry 20). -/
def State.refetched (s t : State) (hh : Byte) : Byte :=
  let p := s.pc + 2
  if t.peek p = s.peek p then hh else t.peek p

/-- The byte that BBC and BBS test in the zero page. If the instruction before changed a request bit in it, the byte is
the one before or the one after that change, which of the two being arbitrary (R353; log entry 12). -/
def State.testedByte (s : State) (zz : Byte) : Byte :=
  let v := (Operand.mem (.zp zz)).value s
  match s.prev.requestBytes.lookup (zpAddr zz).toNat with
  | some old => if anyBit s.draws .staleRequest then old else v
  | none => v

/-- BBC and BBS on A: the branch is taken when the bit is `want` (R254, R255). -/
def State.branchBitAcc (s : State) (i : Nat) (rr : Byte) (want : Bool) : State :=
  s.branch 2 rr (s.a.getLsbD i == want)

/-- BBC and BBS on a zero page byte: the branch is taken when the bit is `want` (R254, R255). -/
def State.branchBitMem (s : State) (i : Nat) (zz rr : Byte) (want : Bool) : State :=
  s.branch 3 rr ((s.testedByte zz).getLsbD i == want)

/-- A conditional branch: taken when the flag is `want` (R264). -/
def State.branchFlag (s : State) (rr : Byte) (f : Flag) (want : Bool) : State :=
  s.branch 2 rr (s.flag f == want)

/-- RTS: PCL and PCH are pulled, and PC is one more (R265). -/
def State.returnFromSubroutine (s : State) : State :=
  let lo := s.pull .pull1
  let hi := lo.2.pull .pull2
  { hi.2 with pc := join hi.1 lo.1 + 1 }

/-! ### JMP (R251) -/

/-- `JMP $hhll` (R251). -/
def execJmpAbs (ll hh : Byte) (s : State) : Result := .next (s.jump (join hh ll))

/-- `JMP ($hhll)`: refused when the pointer lies at the last byte of a page (R251). -/
def execJmpInd (ll hh : Byte) (s : State) : Result :=
  if ll = 0xFF then .refused .jmpIndirectPageEnd else .next (s.jump (s.indirectTarget (join hh ll)))

/-- `JMP ($zz)` (R251). -/
def execJmpZpInd (zz : Byte) (s : State) : Result := .next (s.jump (s.read16zp zz))

/-! ### BRA (R252) -/

/-- `BRA $hhll`: the branch is always taken (R252). -/
def execBra (rr : Byte) (s : State) : Result := .next (s.branch 2 rr true)

/-! ### JSR (R253) -/

/-- `JSR $hhll`: the last operand byte is fetched after the pushes (R253). -/
def execJsrAbs (ll hh : Byte) (s : State) : Result :=
  let t := s.call 3
  .next (t.jump (join (s.refetched t hh) ll))

/-- `JSR ($zz)`: the pointer is read after the pushes (R253). -/
def execJsrZpInd (zz : Byte) (s : State) : Result :=
  let t := s.call 2
  .next (t.jump (t.read16zp zz))

/-- `JSR \$hhll`: the target lies in page `0xFF` (R253). -/
def execJsrSpecial (ll : Byte) (s : State) : Result := .next ((s.call 2).jump (join 0xFF ll))

/-! ### BBC (R254) -/

/-- `BBC i,A,$hhll` (R254). -/
def execBbcAcc (i : Nat) (rr : Byte) (s : State) : Result := .next (s.branchBitAcc i rr false)

/-- `BBC i,$zz,$hhll` (R254). -/
def execBbcZp (i : Nat) (zz rr : Byte) (s : State) : Result := .next (s.branchBitMem i zz rr false)

/-! ### BBS (R255) -/

/-- `BBS i,A,$hhll` (R255). -/
def execBbsAcc (i : Nat) (rr : Byte) (s : State) : Result := .next (s.branchBitAcc i rr true)

/-- `BBS i,$zz,$hhll` (R255). -/
def execBbsZp (i : Nat) (zz rr : Byte) (s : State) : Result := .next (s.branchBitMem i zz rr true)

/-! ### BCC (R256) -/

/-- `BCC $hhll` (R256). -/
def execBcc (rr : Byte) (s : State) : Result := .next (s.branchFlag rr .c false)

/-! ### BCS (R257) -/

/-- `BCS $hhll` (R257). -/
def execBcs (rr : Byte) (s : State) : Result := .next (s.branchFlag rr .c true)

/-! ### BNE (R258) -/

/-- `BNE $hhll` (R258). -/
def execBne (rr : Byte) (s : State) : Result := .next (s.branchFlag rr .z false)

/-! ### BEQ (R259) -/

/-- `BEQ $hhll` (R259). -/
def execBeq (rr : Byte) (s : State) : Result := .next (s.branchFlag rr .z true)

/-! ### BPL (R260) -/

/-- `BPL $hhll` (R260). -/
def execBpl (rr : Byte) (s : State) : Result := .next (s.branchFlag rr .n false)

/-! ### BMI (R261) -/

/-- `BMI $hhll` (R261). -/
def execBmi (rr : Byte) (s : State) : Result := .next (s.branchFlag rr .n true)

/-! ### BVC (R262) -/

/-- `BVC $hhll` (R262). -/
def execBvc (rr : Byte) (s : State) : Result := .next (s.branchFlag rr .v false)

/-! ### BVS (R263) -/

/-- `BVS $hhll` (R263). -/
def execBvs (rr : Byte) (s : State) : Result := .next (s.branchFlag rr .v true)

/-! ### RTS (R265) -/

/-- `RTS` (R265). -/
def execRts (s : State) : Result := .next (s.returnFromSubroutine)

/-! ### RTI (R266) -/

/-- `RTI` (R266). -/
def execRti (s : State) : Result := .next (s.returnFromException)

end Sys2Proof.Machine
end

