-- ==== Sys2Proof/Machine/Logic.lean ====
section
/-! DEFINITION. The logical, comparison, shift and rotate instructions (`43_logic_compare_shift.md`). One definition for
each instruction, over the shared operations that open the file. -/

namespace Sys2Proof.Machine

open Sys2Proof Sys2Proof.Config

/-- AND, ORA and EOR: the destination is A, or M(X) when `PS.T = 1` (R200). -/
def State.logic (s : State) (o : Operand) (f : Byte → Byte → Byte) : State :=
  let r := f s.firstOperand (o.value s)
  ((s.putResult r).setNZ r).advance o.len

/-- BIT: N and V are bits 7 and 6 of M, Z says that A and M have no set bit in common; nothing is stored (R205). -/
def State.bitTest (s : State) (m : EaMode) : State :=
  let v := (Operand.mem m).value s
  (((s.setFlag .n (v.getLsbD 7)).setFlag .v (v.getLsbD 6)).setFlag .z (s.a &&& v == 0)).advance m.len

/-- CMP, CPX and CPY: the flags of a comparison; nothing is stored (R207, R208, R209). -/
def State.compare (s : State) (d : Byte) (o : Operand) : State := (s.setCompare d (o.value s)).advance o.len

/-- A shift or rotate of A (R210). -/
def State.shiftAcc (s : State) (f : Byte → Bool → ShiftOut) : State :=
  let out := f s.a (s.flag .c)
  ({ s with a := out.result }.setShift out).advance 1

/-- A shift or rotate of the byte at an effective address, a read-modify-write (R70, R210). -/
def State.shiftMem (s : State) (m : EaMode) (f : Byte → Bool → ShiftOut) : State :=
  let out := f ((Operand.mem m).value s) (s.flag .c)
  ((s.write (m.ea s) out.result).setShift out).advance m.len

/-- RRF: the halves of the byte are exchanged; no flag changes (R215). -/
def State.rotateFour (s : State) (zz : Byte) : State :=
  (s.write (zpAddr zz) (swapHalves ((Operand.mem (.zp zz)).value s))).advance 2

/-! ### AND (R201) -/

/-- `AND #$nn` (R201). -/
def execAndImm (nn : Byte) (s : State) : Result := .next (s.logic (.imm nn) (· &&& ·))

/-- `AND $zz` (R201). -/
def execAndZp (zz : Byte) (s : State) : Result := .next (s.logic (.mem (.zp zz)) (· &&& ·))

/-- `AND $zz,X` (R201). -/
def execAndZpX (zz : Byte) (s : State) : Result := .next (s.logic (.mem (.zpX zz)) (· &&& ·))

/-- `AND $hhll` (R201). -/
def execAndAbs (ll hh : Byte) (s : State) : Result := .next (s.logic (.mem (.abs ll hh)) (· &&& ·))

/-- `AND $hhll,X` (R201). -/
def execAndAbsX (ll hh : Byte) (s : State) : Result := .next (s.logic (.mem (.absX ll hh)) (· &&& ·))

/-- `AND $hhll,Y` (R201). -/
def execAndAbsY (ll hh : Byte) (s : State) : Result := .next (s.logic (.mem (.absY ll hh)) (· &&& ·))

/-- `AND ($zz,X)` (R201). -/
def execAndIndX (zz : Byte) (s : State) : Result := .next (s.logic (.mem (.indX zz)) (· &&& ·))

/-- `AND ($zz),Y` (R201). -/
def execAndIndY (zz : Byte) (s : State) : Result := .next (s.logic (.mem (.indY zz)) (· &&& ·))

/-! ### ORA (R202) -/

/-- `ORA #$nn` (R202). -/
def execOraImm (nn : Byte) (s : State) : Result := .next (s.logic (.imm nn) (· ||| ·))

/-- `ORA $zz` (R202). -/
def execOraZp (zz : Byte) (s : State) : Result := .next (s.logic (.mem (.zp zz)) (· ||| ·))

/-- `ORA $zz,X` (R202). -/
def execOraZpX (zz : Byte) (s : State) : Result := .next (s.logic (.mem (.zpX zz)) (· ||| ·))

/-- `ORA $hhll` (R202). -/
def execOraAbs (ll hh : Byte) (s : State) : Result := .next (s.logic (.mem (.abs ll hh)) (· ||| ·))

/-- `ORA $hhll,X` (R202). -/
def execOraAbsX (ll hh : Byte) (s : State) : Result := .next (s.logic (.mem (.absX ll hh)) (· ||| ·))

/-- `ORA $hhll,Y` (R202). -/
def execOraAbsY (ll hh : Byte) (s : State) : Result := .next (s.logic (.mem (.absY ll hh)) (· ||| ·))

/-- `ORA ($zz,X)` (R202). -/
def execOraIndX (zz : Byte) (s : State) : Result := .next (s.logic (.mem (.indX zz)) (· ||| ·))

/-- `ORA ($zz),Y` (R202). -/
def execOraIndY (zz : Byte) (s : State) : Result := .next (s.logic (.mem (.indY zz)) (· ||| ·))

/-! ### EOR (R203) -/

/-- `EOR #$nn` (R203). -/
def execEorImm (nn : Byte) (s : State) : Result := .next (s.logic (.imm nn) (· ^^^ ·))

/-- `EOR $zz` (R203). -/
def execEorZp (zz : Byte) (s : State) : Result := .next (s.logic (.mem (.zp zz)) (· ^^^ ·))

/-- `EOR $zz,X` (R203). -/
def execEorZpX (zz : Byte) (s : State) : Result := .next (s.logic (.mem (.zpX zz)) (· ^^^ ·))

/-- `EOR $hhll` (R203). -/
def execEorAbs (ll hh : Byte) (s : State) : Result := .next (s.logic (.mem (.abs ll hh)) (· ^^^ ·))

/-- `EOR $hhll,X` (R203). -/
def execEorAbsX (ll hh : Byte) (s : State) : Result := .next (s.logic (.mem (.absX ll hh)) (· ^^^ ·))

/-- `EOR $hhll,Y` (R203). -/
def execEorAbsY (ll hh : Byte) (s : State) : Result := .next (s.logic (.mem (.absY ll hh)) (· ^^^ ·))

/-- `EOR ($zz,X)` (R203). -/
def execEorIndX (zz : Byte) (s : State) : Result := .next (s.logic (.mem (.indX zz)) (· ^^^ ·))

/-- `EOR ($zz),Y` (R203). -/
def execEorIndY (zz : Byte) (s : State) : Result := .next (s.logic (.mem (.indY zz)) (· ^^^ ·))

/-! ### COM (R204) -/

/-- `COM $zz` (R204). -/
def execComZp (zz : Byte) (s : State) : Result := .next (s.modifyNZ (.zp zz) (~~~ ·))

/-! ### BIT (R205) -/

/-- `BIT $zz` (R205). -/
def execBitZp (zz : Byte) (s : State) : Result := .next (s.bitTest (.zp zz))

/-- `BIT $hhll` (R205). -/
def execBitAbs (ll hh : Byte) (s : State) : Result := .next (s.bitTest (.abs ll hh))

/-! ### TST (R206) -/

/-- `TST $zz`: N and Z of the byte; nothing is stored (R206). -/
def execTstZp (zz : Byte) (s : State) : Result := .next ((s.setNZ ((Operand.mem (.zp zz)).value s)).advance 2)

/-! ### CMP (R207) -/

/-- `CMP #$nn` (R207). -/
def execCmpImm (nn : Byte) (s : State) : Result := .next (s.compare s.firstOperand (.imm nn))

/-- `CMP $zz` (R207). -/
def execCmpZp (zz : Byte) (s : State) : Result := .next (s.compare s.firstOperand (.mem (.zp zz)))

/-- `CMP $zz,X` (R207). -/
def execCmpZpX (zz : Byte) (s : State) : Result := .next (s.compare s.firstOperand (.mem (.zpX zz)))

/-- `CMP $hhll` (R207). -/
def execCmpAbs (ll hh : Byte) (s : State) : Result := .next (s.compare s.firstOperand (.mem (.abs ll hh)))

/-- `CMP $hhll,X` (R207). -/
def execCmpAbsX (ll hh : Byte) (s : State) : Result := .next (s.compare s.firstOperand (.mem (.absX ll hh)))

/-- `CMP $hhll,Y` (R207). -/
def execCmpAbsY (ll hh : Byte) (s : State) : Result := .next (s.compare s.firstOperand (.mem (.absY ll hh)))

/-- `CMP ($zz,X)` (R207). -/
def execCmpIndX (zz : Byte) (s : State) : Result := .next (s.compare s.firstOperand (.mem (.indX zz)))

/-- `CMP ($zz),Y` (R207). -/
def execCmpIndY (zz : Byte) (s : State) : Result := .next (s.compare s.firstOperand (.mem (.indY zz)))

/-! ### CPX (R208) -/

/-- `CPX #$nn` (R208). -/
def execCpxImm (nn : Byte) (s : State) : Result := .next (s.compare s.x (.imm nn))

/-- `CPX $zz` (R208). -/
def execCpxZp (zz : Byte) (s : State) : Result := .next (s.compare s.x (.mem (.zp zz)))

/-- `CPX $hhll` (R208). -/
def execCpxAbs (ll hh : Byte) (s : State) : Result := .next (s.compare s.x (.mem (.abs ll hh)))

/-! ### CPY (R209) -/

/-- `CPY #$nn` (R209). -/
def execCpyImm (nn : Byte) (s : State) : Result := .next (s.compare s.y (.imm nn))

/-- `CPY $zz` (R209). -/
def execCpyZp (zz : Byte) (s : State) : Result := .next (s.compare s.y (.mem (.zp zz)))

/-- `CPY $hhll` (R209). -/
def execCpyAbs (ll hh : Byte) (s : State) : Result := .next (s.compare s.y (.mem (.abs ll hh)))

/-! ### ASL (R211) -/

/-- `ASL A` (R211). -/
def execAslAcc (s : State) : Result := .next (s.shiftAcc shiftAsl)

/-- `ASL $zz` (R211). -/
def execAslZp (zz : Byte) (s : State) : Result := .next (s.shiftMem (.zp zz) shiftAsl)

/-- `ASL $zz,X` (R211). -/
def execAslZpX (zz : Byte) (s : State) : Result := .next (s.shiftMem (.zpX zz) shiftAsl)

/-- `ASL $hhll` (R211). -/
def execAslAbs (ll hh : Byte) (s : State) : Result := .next (s.shiftMem (.abs ll hh) shiftAsl)

/-- `ASL $hhll,X` (R211). -/
def execAslAbsX (ll hh : Byte) (s : State) : Result := .next (s.shiftMem (.absX ll hh) shiftAsl)

/-! ### LSR (R212) -/

/-- `LSR A` (R212). -/
def execLsrAcc (s : State) : Result := .next (s.shiftAcc shiftLsr)

/-- `LSR $zz` (R212). -/
def execLsrZp (zz : Byte) (s : State) : Result := .next (s.shiftMem (.zp zz) shiftLsr)

/-- `LSR $zz,X` (R212). -/
def execLsrZpX (zz : Byte) (s : State) : Result := .next (s.shiftMem (.zpX zz) shiftLsr)

/-- `LSR $hhll` (R212). -/
def execLsrAbs (ll hh : Byte) (s : State) : Result := .next (s.shiftMem (.abs ll hh) shiftLsr)

/-- `LSR $hhll,X` (R212). -/
def execLsrAbsX (ll hh : Byte) (s : State) : Result := .next (s.shiftMem (.absX ll hh) shiftLsr)

/-! ### ROL (R213) -/

/-- `ROL A` (R213). -/
def execRolAcc (s : State) : Result := .next (s.shiftAcc shiftRol)

/-- `ROL $zz` (R213). -/
def execRolZp (zz : Byte) (s : State) : Result := .next (s.shiftMem (.zp zz) shiftRol)

/-- `ROL $zz,X` (R213). -/
def execRolZpX (zz : Byte) (s : State) : Result := .next (s.shiftMem (.zpX zz) shiftRol)

/-- `ROL $hhll` (R213). -/
def execRolAbs (ll hh : Byte) (s : State) : Result := .next (s.shiftMem (.abs ll hh) shiftRol)

/-- `ROL $hhll,X` (R213). -/
def execRolAbsX (ll hh : Byte) (s : State) : Result := .next (s.shiftMem (.absX ll hh) shiftRol)

/-! ### ROR (R214) -/

/-- `ROR A` (R214). -/
def execRorAcc (s : State) : Result := .next (s.shiftAcc shiftRor)

/-- `ROR $zz` (R214). -/
def execRorZp (zz : Byte) (s : State) : Result := .next (s.shiftMem (.zp zz) shiftRor)

/-- `ROR $zz,X` (R214). -/
def execRorZpX (zz : Byte) (s : State) : Result := .next (s.shiftMem (.zpX zz) shiftRor)

/-- `ROR $hhll` (R214). -/
def execRorAbs (ll hh : Byte) (s : State) : Result := .next (s.shiftMem (.abs ll hh) shiftRor)

/-- `ROR $hhll,X` (R214). -/
def execRorAbsX (ll hh : Byte) (s : State) : Result := .next (s.shiftMem (.absX ll hh) shiftRor)

/-! ### RRF (R215) -/

/-- `RRF $zz` (R215). -/
def execRrfZp (zz : Byte) (s : State) : Result := .next (s.rotateFour zz)

end Sys2Proof.Machine
end

