-- ==== Sys2Proof/Machine/System.lean ====
section
/-! DEFINITION. BRK, WIT, STP and NOP (`46_interrupt_special_other.md`). One definition for each instruction, over the
shared operations that open the file. -/

namespace Sys2Proof.Machine

open Sys2Proof Sys2Proof.Config

/-- BRK as its own rule gives it: the exception is taken with B = 1, the return address two past the op-code, and the
break vector (R281). -/
def State.takeBreak (s : State) : State :=
  s.takeException true (s.pc + 2) s.cfg.brkVector .brkVectorLo .brkVectorHi

/-- BRK while the source `k` is pending and enabled: the three admitted behaviours (R319; log entry 10). -/
def State.takeBreakPending (s : State) (k : IntSource) : State :=
  match s.cfg.brkWithPending with
  | .stayPending => s.takeBreak
  | .sourceVector =>
    (s.takeException true (s.pc + 2) k.vector .irqVectorLo .irqVectorHi).setBitAt k.request false
  | .entryAfter => s.takeBreak.enterInterrupt k

/-! ### BRK (R281) -/

/-- `BRK`: the software interrupt; with a source pending, the product's choice of R319 (R281). -/
def execBrk (s : State) : Result :=
  match s.firstPending with
  | some k => .next (s.takeBreakPending k)
  | none => .next s.takeBreak

/-! ### WIT (R282) -/

/-- `WIT`: the wait state; no flag changes (R282). -/
def execWit (s : State) : Result := .next ({ s.advance 1 with run := .wait })

/-! ### STP (R283) -/

/-- `STP`: the stop state, or NOP, or no instruction, by `STP_MODE` (R283). -/
def execStp (s : State) : Result :=
  match s.cfg.stpMode with
  | .enabled => .next { s.advance 1 with run := .stop }
  | .disabled => .next (s.advance 1)
  | .absent => .refused (.undefinedOpcode 0x42)

/-! ### NOP (R284) -/

/-- `NOP`: only PC advances (R284). -/
def execNop (s : State) : Result := .next (s.advance 1)

end Sys2Proof.Machine
end

