-- ==== Sys2Proof/Machine/Dispatch.lean ====
section
/-! DEFINITION. The dispatch: every instruction's meaning, one arm for each constructor of `Instr`. -/

namespace Sys2Proof.Machine

open Sys2Proof

/-- The meaning of an instruction at a state whose PC is the address of its op-code (R15). -/
def exec (i : Instr) (s : State) : Host.Outcome State Fault Refusal :=
  match i with
  -- Data transfer
  | .ldaImm nn => Sys2Proof.Machine.execLdaImm nn s
  | .ldaZp zz => Sys2Proof.Machine.execLdaZp zz s
  | .ldaZpX zz => Sys2Proof.Machine.execLdaZpX zz s
  | .ldaAbs ll hh => Sys2Proof.Machine.execLdaAbs ll hh s
  | .ldaAbsX ll hh => Sys2Proof.Machine.execLdaAbsX ll hh s
  | .ldaAbsY ll hh => Sys2Proof.Machine.execLdaAbsY ll hh s
  | .ldaIndX zz => Sys2Proof.Machine.execLdaIndX zz s
  | .ldaIndY zz => Sys2Proof.Machine.execLdaIndY zz s
  | .ldmZp nn zz => Sys2Proof.Machine.execLdmZp nn zz s
  | .ldxImm nn => Sys2Proof.Machine.execLdxImm nn s
  | .ldxZp zz => Sys2Proof.Machine.execLdxZp zz s
  | .ldxZpY zz => Sys2Proof.Machine.execLdxZpY zz s
  | .ldxAbs ll hh => Sys2Proof.Machine.execLdxAbs ll hh s
  | .ldxAbsY ll hh => Sys2Proof.Machine.execLdxAbsY ll hh s
  | .ldyImm nn => Sys2Proof.Machine.execLdyImm nn s
  | .ldyZp zz => Sys2Proof.Machine.execLdyZp zz s
  | .ldyZpX zz => Sys2Proof.Machine.execLdyZpX zz s
  | .ldyAbs ll hh => Sys2Proof.Machine.execLdyAbs ll hh s
  | .ldyAbsX ll hh => Sys2Proof.Machine.execLdyAbsX ll hh s
  | .staZp zz => Sys2Proof.Machine.execStaZp zz s
  | .staZpX zz => Sys2Proof.Machine.execStaZpX zz s
  | .staAbs ll hh => Sys2Proof.Machine.execStaAbs ll hh s
  | .staAbsX ll hh => Sys2Proof.Machine.execStaAbsX ll hh s
  | .staAbsY ll hh => Sys2Proof.Machine.execStaAbsY ll hh s
  | .staIndX zz => Sys2Proof.Machine.execStaIndX zz s
  | .staIndY zz => Sys2Proof.Machine.execStaIndY zz s
  | .stxZp zz => Sys2Proof.Machine.execStxZp zz s
  | .stxZpY zz => Sys2Proof.Machine.execStxZpY zz s
  | .stxAbs ll hh => Sys2Proof.Machine.execStxAbs ll hh s
  | .styZp zz => Sys2Proof.Machine.execStyZp zz s
  | .styZpX zz => Sys2Proof.Machine.execStyZpX zz s
  | .styAbs ll hh => Sys2Proof.Machine.execStyAbs ll hh s
  | .tax => Sys2Proof.Machine.execTax s
  | .txa => Sys2Proof.Machine.execTxa s
  | .tay => Sys2Proof.Machine.execTay s
  | .tya => Sys2Proof.Machine.execTya s
  | .tsx => Sys2Proof.Machine.execTsx s
  | .txs => Sys2Proof.Machine.execTxs s
  | .pha => Sys2Proof.Machine.execPha s
  | .php => Sys2Proof.Machine.execPhp s
  | .pla => Sys2Proof.Machine.execPla s
  | .plp => Sys2Proof.Machine.execPlp s
  -- Arithmetic
  | .adcImm nn => Sys2Proof.Machine.execAdcImm nn s
  | .adcZp zz => Sys2Proof.Machine.execAdcZp zz s
  | .adcZpX zz => Sys2Proof.Machine.execAdcZpX zz s
  | .adcAbs ll hh => Sys2Proof.Machine.execAdcAbs ll hh s
  | .adcAbsX ll hh => Sys2Proof.Machine.execAdcAbsX ll hh s
  | .adcAbsY ll hh => Sys2Proof.Machine.execAdcAbsY ll hh s
  | .adcIndX zz => Sys2Proof.Machine.execAdcIndX zz s
  | .adcIndY zz => Sys2Proof.Machine.execAdcIndY zz s
  | .sbcImm nn => Sys2Proof.Machine.execSbcImm nn s
  | .sbcZp zz => Sys2Proof.Machine.execSbcZp zz s
  | .sbcZpX zz => Sys2Proof.Machine.execSbcZpX zz s
  | .sbcAbs ll hh => Sys2Proof.Machine.execSbcAbs ll hh s
  | .sbcAbsX ll hh => Sys2Proof.Machine.execSbcAbsX ll hh s
  | .sbcAbsY ll hh => Sys2Proof.Machine.execSbcAbsY ll hh s
  | .sbcIndX zz => Sys2Proof.Machine.execSbcIndX zz s
  | .sbcIndY zz => Sys2Proof.Machine.execSbcIndY zz s
  | .incAcc => Sys2Proof.Machine.execIncAcc s
  | .incZp zz => Sys2Proof.Machine.execIncZp zz s
  | .incZpX zz => Sys2Proof.Machine.execIncZpX zz s
  | .incAbs ll hh => Sys2Proof.Machine.execIncAbs ll hh s
  | .incAbsX ll hh => Sys2Proof.Machine.execIncAbsX ll hh s
  | .decAcc => Sys2Proof.Machine.execDecAcc s
  | .decZp zz => Sys2Proof.Machine.execDecZp zz s
  | .decZpX zz => Sys2Proof.Machine.execDecZpX zz s
  | .decAbs ll hh => Sys2Proof.Machine.execDecAbs ll hh s
  | .decAbsX ll hh => Sys2Proof.Machine.execDecAbsX ll hh s
  | .inx => Sys2Proof.Machine.execInx s
  | .dex => Sys2Proof.Machine.execDex s
  | .iny => Sys2Proof.Machine.execIny s
  | .dey => Sys2Proof.Machine.execDey s
  | .mulZpX zz => Sys2Proof.Machine.execMulZpX zz s
  | .divZpX zz => Sys2Proof.Machine.execDivZpX zz s
  -- Logic, compare, shift and rotate
  | .andImm nn => Sys2Proof.Machine.execAndImm nn s
  | .andZp zz => Sys2Proof.Machine.execAndZp zz s
  | .andZpX zz => Sys2Proof.Machine.execAndZpX zz s
  | .andAbs ll hh => Sys2Proof.Machine.execAndAbs ll hh s
  | .andAbsX ll hh => Sys2Proof.Machine.execAndAbsX ll hh s
  | .andAbsY ll hh => Sys2Proof.Machine.execAndAbsY ll hh s
  | .andIndX zz => Sys2Proof.Machine.execAndIndX zz s
  | .andIndY zz => Sys2Proof.Machine.execAndIndY zz s
  | .oraImm nn => Sys2Proof.Machine.execOraImm nn s
  | .oraZp zz => Sys2Proof.Machine.execOraZp zz s
  | .oraZpX zz => Sys2Proof.Machine.execOraZpX zz s
  | .oraAbs ll hh => Sys2Proof.Machine.execOraAbs ll hh s
  | .oraAbsX ll hh => Sys2Proof.Machine.execOraAbsX ll hh s
  | .oraAbsY ll hh => Sys2Proof.Machine.execOraAbsY ll hh s
  | .oraIndX zz => Sys2Proof.Machine.execOraIndX zz s
  | .oraIndY zz => Sys2Proof.Machine.execOraIndY zz s
  | .eorImm nn => Sys2Proof.Machine.execEorImm nn s
  | .eorZp zz => Sys2Proof.Machine.execEorZp zz s
  | .eorZpX zz => Sys2Proof.Machine.execEorZpX zz s
  | .eorAbs ll hh => Sys2Proof.Machine.execEorAbs ll hh s
  | .eorAbsX ll hh => Sys2Proof.Machine.execEorAbsX ll hh s
  | .eorAbsY ll hh => Sys2Proof.Machine.execEorAbsY ll hh s
  | .eorIndX zz => Sys2Proof.Machine.execEorIndX zz s
  | .eorIndY zz => Sys2Proof.Machine.execEorIndY zz s
  | .comZp zz => Sys2Proof.Machine.execComZp zz s
  | .bitZp zz => Sys2Proof.Machine.execBitZp zz s
  | .bitAbs ll hh => Sys2Proof.Machine.execBitAbs ll hh s
  | .tstZp zz => Sys2Proof.Machine.execTstZp zz s
  | .cmpImm nn => Sys2Proof.Machine.execCmpImm nn s
  | .cmpZp zz => Sys2Proof.Machine.execCmpZp zz s
  | .cmpZpX zz => Sys2Proof.Machine.execCmpZpX zz s
  | .cmpAbs ll hh => Sys2Proof.Machine.execCmpAbs ll hh s
  | .cmpAbsX ll hh => Sys2Proof.Machine.execCmpAbsX ll hh s
  | .cmpAbsY ll hh => Sys2Proof.Machine.execCmpAbsY ll hh s
  | .cmpIndX zz => Sys2Proof.Machine.execCmpIndX zz s
  | .cmpIndY zz => Sys2Proof.Machine.execCmpIndY zz s
  | .cpxImm nn => Sys2Proof.Machine.execCpxImm nn s
  | .cpxZp zz => Sys2Proof.Machine.execCpxZp zz s
  | .cpxAbs ll hh => Sys2Proof.Machine.execCpxAbs ll hh s
  | .cpyImm nn => Sys2Proof.Machine.execCpyImm nn s
  | .cpyZp zz => Sys2Proof.Machine.execCpyZp zz s
  | .cpyAbs ll hh => Sys2Proof.Machine.execCpyAbs ll hh s
  | .aslAcc => Sys2Proof.Machine.execAslAcc s
  | .aslZp zz => Sys2Proof.Machine.execAslZp zz s
  | .aslZpX zz => Sys2Proof.Machine.execAslZpX zz s
  | .aslAbs ll hh => Sys2Proof.Machine.execAslAbs ll hh s
  | .aslAbsX ll hh => Sys2Proof.Machine.execAslAbsX ll hh s
  | .lsrAcc => Sys2Proof.Machine.execLsrAcc s
  | .lsrZp zz => Sys2Proof.Machine.execLsrZp zz s
  | .lsrZpX zz => Sys2Proof.Machine.execLsrZpX zz s
  | .lsrAbs ll hh => Sys2Proof.Machine.execLsrAbs ll hh s
  | .lsrAbsX ll hh => Sys2Proof.Machine.execLsrAbsX ll hh s
  | .rolAcc => Sys2Proof.Machine.execRolAcc s
  | .rolZp zz => Sys2Proof.Machine.execRolZp zz s
  | .rolZpX zz => Sys2Proof.Machine.execRolZpX zz s
  | .rolAbs ll hh => Sys2Proof.Machine.execRolAbs ll hh s
  | .rolAbsX ll hh => Sys2Proof.Machine.execRolAbsX ll hh s
  | .rorAcc => Sys2Proof.Machine.execRorAcc s
  | .rorZp zz => Sys2Proof.Machine.execRorZp zz s
  | .rorZpX zz => Sys2Proof.Machine.execRorZpX zz s
  | .rorAbs ll hh => Sys2Proof.Machine.execRorAbs ll hh s
  | .rorAbsX ll hh => Sys2Proof.Machine.execRorAbsX ll hh s
  | .rrfZp zz => Sys2Proof.Machine.execRrfZp zz s
  -- Bit and flag
  | .clbZp k zz => Sys2Proof.Machine.execClbZp k zz s
  | .clbAcc k => Sys2Proof.Machine.execClbAcc k s
  | .sebZp k zz => Sys2Proof.Machine.execSebZp k zz s
  | .sebAcc k => Sys2Proof.Machine.execSebAcc k s
  | .clc => Sys2Proof.Machine.execClc s
  | .sec => Sys2Proof.Machine.execSec s
  | .cld => Sys2Proof.Machine.execCld s
  | .sed => Sys2Proof.Machine.execSed s
  | .cli => Sys2Proof.Machine.execCli s
  | .sei => Sys2Proof.Machine.execSei s
  | .clt => Sys2Proof.Machine.execClt s
  | .set => Sys2Proof.Machine.execSet s
  | .clv => Sys2Proof.Machine.execClv s
  -- Jump, branch and return
  | .jmpAbs ll hh => Sys2Proof.Machine.execJmpAbs ll hh s
  | .jmpInd ll hh => Sys2Proof.Machine.execJmpInd ll hh s
  | .jmpZpInd zz => Sys2Proof.Machine.execJmpZpInd zz s
  | .bra rr => Sys2Proof.Machine.execBra rr s
  | .jsrAbs ll hh => Sys2Proof.Machine.execJsrAbs ll hh s
  | .jsrZpInd zz => Sys2Proof.Machine.execJsrZpInd zz s
  | .jsrSpecial ll => Sys2Proof.Machine.execJsrSpecial ll s
  | .bbcAcc k rr => Sys2Proof.Machine.execBbcAcc k rr s
  | .bbcZp k zz rr => Sys2Proof.Machine.execBbcZp k zz rr s
  | .bbsAcc k rr => Sys2Proof.Machine.execBbsAcc k rr s
  | .bbsZp k zz rr => Sys2Proof.Machine.execBbsZp k zz rr s
  | .bcc rr => Sys2Proof.Machine.execBcc rr s
  | .bcs rr => Sys2Proof.Machine.execBcs rr s
  | .bne rr => Sys2Proof.Machine.execBne rr s
  | .beq rr => Sys2Proof.Machine.execBeq rr s
  | .bpl rr => Sys2Proof.Machine.execBpl rr s
  | .bmi rr => Sys2Proof.Machine.execBmi rr s
  | .bvc rr => Sys2Proof.Machine.execBvc rr s
  | .bvs rr => Sys2Proof.Machine.execBvs rr s
  | .rts => Sys2Proof.Machine.execRts s
  | .rti => Sys2Proof.Machine.execRti s
  -- Interrupt, special and other
  | .brk => Sys2Proof.Machine.execBrk s
  | .wit => Sys2Proof.Machine.execWit s
  | .stp => Sys2Proof.Machine.execStp s
  | .nop => Sys2Proof.Machine.execNop s

end Sys2Proof.Machine
end

