-- ==== Sys2Proof/Machine/Fetch.lean ====
section
/-! DEFINITION. Fetching and decoding the instruction at the program counter: the op-code first, then the operand
bytes its length asks for, in increasing address order (R94, R116), each from RAM or ROM (R73). -/

namespace Sys2Proof.Machine

open Sys2Proof Sys2Proof.Config

/-- An instruction byte can be fetched from an address: it is RAM or ROM (R73). -/
def State.fetchable (s : State) (a : Addr) : Bool :=
  match classOf s.cfg a with
  | .ram | .rom => true
  | .sfr | .unmapped => false

/-- The instruction byte at an address, or the refusal of a fetch from no memory (R73). -/
def State.fetchByte (s : State) (a : Addr) : Except Refusal Byte :=
  if s.fetchable a then .ok (s.peek a) else .error (.fetchFromNonMemory a)

/-- An op-code whose instruction a product does not have, which is then treated as one that is no instruction (R111):
MUL and DIV (R6), STP (R7). -/
def lacks (p : Product) (op : Byte) : Bool :=
  ((op == 0x62 || op == 0xE2) && !p.hasMulDiv) || (op == 0x42 && p.stpMode == .absent)

/-- The instruction at the program counter, or why there is none (R94). Of an op-code that the product lacks no operand
is read (R110, R111). -/
def State.fetch (s : State) : Except Refusal Instr :=
  match s.fetchByte s.pc with
  | .error r => .error r
  | .ok op =>
    match if lacks s.cfg op then none else opShape op with
    | none => .error (.undefinedOpcode op)
    | some (.f1 i) => .ok i
    | some (.f2 f) =>
      match s.fetchByte (s.pc + 1) with
      | .error r => .error r
      | .ok o1 => .ok (f o1)
    | some (.f3 f) =>
      match s.fetchByte (s.pc + 1), s.fetchByte (s.pc + 2) with
      | .ok o1, .ok o2 => .ok (f o1 o2)
      | .error r, _ => .error r
      | .ok _, .error r => .error r

/-- A product whose memory map has the byte at an address as RAM, unless an instruction byte can be fetched there
already. -/
def withFetchable (p : Product) (a : Addr) : Product :=
  match classOf p a with
  | .ram | .rom => p
  | .sfr | .unmapped => { p with memmap := { first := a, last := a, cls := .ram } :: p.memmap }

/-- The state with an instruction byte loaded from outside at an address where it can be fetched. -/
def State.loadByte (s : State) (a : Addr) (v : Byte) : State :=
  { s with mem := s.mem.set a.toNat v, cfg := withFetchable s.cfg a }

end Sys2Proof.Machine
end

