-- ==== Sys2Proof/Machine/Step.lean ====
section
/-! DEFINITION. One step of the machine, and the state whose next step runs a given instruction. -/

namespace Sys2Proof.Machine

open Sys2Proof

/-- The step that runs the instruction at the program counter: fetch and decode (R94), the forbidden sequences (R350),
the instruction's meaning, and the history it leaves (R46). Where a stop of the fetch and a forbidden sequence both apply,
the refusal is the fetch's: DESIGN CHOICE, safe (log entry 30). -/
def State.runInstr (s : State) : Result :=
  match s.fetch with
  | .error r => .refused r
  | .ok i =>
    match hazard i s with
    | some k => .refused (.hazardViolation k)
    | none =>
      match exec i s with
      | .next t => .next (s.retire i t)
      | .fault f => .fault f
      | .refused r => .refused r

/-- The step of a boundary without reset, `t` being `s` with the requests arrived: an accepted source first, then the
next instruction, or the standby state (R321, R325, R326). -/
def State.live (s t : State) : Result :=
  match t.accepted s.input with
  | some k => .next (t.accept k)
  | none =>
    match t.run with
    | .running => t.runInstr
    | .wait | .stop => .next (s.standby t)

/-- One step: a reset overrides everything (R321, R340). -/
def step (s : State) : Host.Outcome State Fault Refusal :=
  match s.input.reset with
  | some d => .next (s.popInput.resetWith d)
  | none => s.live s.landed

/-- The state whose next step runs the instruction with the bits `w`: its three bytes, the bits above `nbits` zero,
are loaded at the program counter, where they can be fetched; the CPU runs, no history forbids the instruction, and
nothing arrives from outside at the boundary. The acceptance of a source that is acceptable now is delayed. -/
def State.withFetchWord (s : State) (nbits w : Nat) : State :=
  let v := w % 2 ^ nbits
  let t := ((s.loadByte s.pc (byteOf v 0)).loadByte (s.pc + 1) (byteOf v 1)).loadByte (s.pc + 2) (byteOf v 2)
  { t with
    run := .running
    prev := Prev.other
    inputs := if t.cfg.sources.any t.isAcceptable then [{ delayed := true }] else [] }

end Sys2Proof.Machine
end

