-- ==== Sys2Proof/Machine/Timing.lean ====
section
/-! DEFINITION. The cycle numbers (R360, R361): how many cycles of the internal clock an instruction takes when it runs
at a state. No rule of the spec depends on them and the machine carries no cycle counter (R47, R360; log entry 22). -/

namespace Sys2Proof.Machine

open Sys2Proof

/-- The base cycle number of an instruction: T = 0, branch not taken (R361). A disabled STP takes the same 2 (R360). -/
def baseCycles : Instr → Nat
  | .ldaImm _ | .ldxImm _ | .ldyImm _ | .tax | .txa | .tay | .tya | .tsx | .txs | .adcImm _ | .sbcImm _
  | .incAcc | .decAcc | .inx | .dex | .iny | .dey | .andImm _ | .oraImm _ | .eorImm _ | .cmpImm _ | .cpxImm _
  | .cpyImm _ | .aslAcc | .lsrAcc | .rolAcc | .rorAcc | .clbAcc _ | .sebAcc _ | .clc | .sec | .cld | .sed
  | .cli | .sei | .clt | .set | .clv | .bcc _ | .bcs _ | .bne _ | .beq _ | .bpl _ | .bmi _ | .bvc _ | .bvs _
  | .wit | .stp | .nop => 2
  | .ldaZp _ | .ldxZp _ | .ldyZp _ | .pha | .php | .adcZp _ | .sbcZp _ | .andZp _ | .oraZp _ | .eorZp _
  | .bitZp _ | .tstZp _ | .cmpZp _ | .cpxZp _ | .cpyZp _ | .jmpAbs _ _ => 3
  | .ldaZpX _ | .ldaAbs _ _ | .ldmZp _ _ | .ldxZpY _ | .ldxAbs _ _ | .ldyZpX _ | .ldyAbs _ _ | .staZp _
  | .stxZp _ | .styZp _ | .pla | .plp | .adcZpX _ | .adcAbs _ _ | .sbcZpX _ | .sbcAbs _ _ | .andZpX _
  | .andAbs _ _ | .oraZpX _ | .oraAbs _ _ | .eorZpX _ | .eorAbs _ _ | .bitAbs _ _ | .cmpZpX _ | .cmpAbs _ _
  | .cpxAbs _ _ | .cpyAbs _ _ | .jmpZpInd _ | .bra _ | .bbcAcc _ _ | .bbsAcc _ _ => 4
  | .ldaAbsX _ _ | .ldaAbsY _ _ | .ldxAbsY _ _ | .ldyAbsX _ _ | .staZpX _ | .staAbs _ _ | .stxZpY _
  | .stxAbs _ _ | .styZpX _ | .styAbs _ _ | .adcAbsX _ _ | .adcAbsY _ _ | .sbcAbsX _ _ | .sbcAbsY _ _
  | .incZp _ | .decZp _ | .andAbsX _ _ | .andAbsY _ _ | .oraAbsX _ _ | .oraAbsY _ _ | .eorAbsX _ _
  | .eorAbsY _ _ | .comZp _ | .cmpAbsX _ _ | .cmpAbsY _ _ | .aslZp _ | .lsrZp _ | .rolZp _ | .rorZp _
  | .clbZp _ _ | .sebZp _ _ | .jmpInd _ _ | .jsrSpecial _ | .bbcZp _ _ _ | .bbsZp _ _ _ => 5
  | .ldaIndX _ | .ldaIndY _ | .staAbsX _ _ | .staAbsY _ _ | .adcIndX _ | .adcIndY _ | .sbcIndX _ | .sbcIndY _
  | .incZpX _ | .incAbs _ _ | .decZpX _ | .decAbs _ _ | .andIndX _ | .andIndY _ | .oraIndX _ | .oraIndY _
  | .eorIndX _ | .eorIndY _ | .cmpIndX _ | .cmpIndY _ | .aslZpX _ | .aslAbs _ _ | .lsrZpX _ | .lsrAbs _ _
  | .rolZpX _ | .rolAbs _ _ | .rorZpX _ | .rorAbs _ _ | .jsrAbs _ _ | .rts | .rti => 6
  | .staIndX _ | .staIndY _ | .incAbsX _ _ | .decAbsX _ _ | .aslAbsX _ _ | .lsrAbsX _ _ | .rolAbsX _ _
  | .rorAbsX _ _ | .jsrZpInd _ | .brk => 7
  | .rrfZp _ => 8
  | .mulZpX _ => 15
  | .divZpX _ => 16

/-- The cycles added when `PS.T = 1` (R360). -/
def modeTCycles : Mnemonic → Nat
  | .adc | .and | .eor | .ora | .sbc => 3
  | .lda => 2
  | .cmp => 1
  | .ldm | .ldx | .ldy | .sta | .stx | .sty | .tax | .txa | .tay | .tya | .tsx | .txs | .pha | .php | .pla
  | .plp | .inc | .dec | .inx | .dex | .iny | .dey | .mul | .div | .com | .bit | .tst | .cpx | .cpy | .asl
  | .lsr | .rol | .ror | .rrf | .clb | .seb | .clc | .sec | .cld | .sed | .cli | .sei | .clt | .set | .clv
  | .jmp | .bra | .jsr | .bbc | .bbs | .bcc | .bcs | .bne | .beq | .bpl | .bmi | .bvc | .bvs | .rts | .rti
  | .brk | .wit | .stp | .nop => 0

/-- A conditional branch, on a flag or on a bit, is taken at a state (R254, R255, R264). -/
def takesBranch (i : Instr) (s : State) : Bool :=
  match i with
  | .bbcAcc k _ => s.a.getLsbD k == false
  | .bbcZp k zz _ => (s.testedByte zz).getLsbD k == false
  | .bbsAcc k _ => s.a.getLsbD k == true
  | .bbsZp k zz _ => (s.testedByte zz).getLsbD k == true
  | .bcc _ => s.flag .c == false
  | .bcs _ => s.flag .c == true
  | .bne _ => s.flag .z == false
  | .beq _ => s.flag .z == true
  | .bpl _ => s.flag .n == false
  | .bmi _ => s.flag .n == true
  | .bvc _ => s.flag .v == false
  | .bvs _ => s.flag .v == true
  | .ldaImm _ | .ldaZp _ | .ldaZpX _ | .ldaAbs _ _ | .ldaAbsX _ _ | .ldaAbsY _ _ | .ldaIndX _ | .ldaIndY _
  | .ldmZp _ _ | .ldxImm _ | .ldxZp _ | .ldxZpY _ | .ldxAbs _ _ | .ldxAbsY _ _ | .ldyImm _ | .ldyZp _
  | .ldyZpX _ | .ldyAbs _ _ | .ldyAbsX _ _ | .staZp _ | .staZpX _ | .staAbs _ _ | .staAbsX _ _ | .staAbsY _ _
  | .staIndX _ | .staIndY _ | .stxZp _ | .stxZpY _ | .stxAbs _ _ | .styZp _ | .styZpX _ | .styAbs _ _ | .tax
  | .txa | .tay | .tya | .tsx | .txs | .pha | .php | .pla | .plp | .adcImm _ | .adcZp _ | .adcZpX _
  | .adcAbs _ _ | .adcAbsX _ _ | .adcAbsY _ _ | .adcIndX _ | .adcIndY _ | .sbcImm _ | .sbcZp _ | .sbcZpX _
  | .sbcAbs _ _ | .sbcAbsX _ _ | .sbcAbsY _ _ | .sbcIndX _ | .sbcIndY _ | .incAcc | .incZp _ | .incZpX _
  | .incAbs _ _ | .incAbsX _ _ | .decAcc | .decZp _ | .decZpX _ | .decAbs _ _ | .decAbsX _ _ | .inx | .dex
  | .iny | .dey | .mulZpX _ | .divZpX _ | .andImm _ | .andZp _ | .andZpX _ | .andAbs _ _ | .andAbsX _ _
  | .andAbsY _ _ | .andIndX _ | .andIndY _ | .oraImm _ | .oraZp _ | .oraZpX _ | .oraAbs _ _ | .oraAbsX _ _
  | .oraAbsY _ _ | .oraIndX _ | .oraIndY _ | .eorImm _ | .eorZp _ | .eorZpX _ | .eorAbs _ _ | .eorAbsX _ _
  | .eorAbsY _ _ | .eorIndX _ | .eorIndY _ | .comZp _ | .bitZp _ | .bitAbs _ _ | .tstZp _ | .cmpImm _
  | .cmpZp _ | .cmpZpX _ | .cmpAbs _ _ | .cmpAbsX _ _ | .cmpAbsY _ _ | .cmpIndX _ | .cmpIndY _ | .cpxImm _
  | .cpxZp _ | .cpxAbs _ _ | .cpyImm _ | .cpyZp _ | .cpyAbs _ _ | .aslAcc | .aslZp _ | .aslZpX _ | .aslAbs _ _
  | .aslAbsX _ _ | .lsrAcc | .lsrZp _ | .lsrZpX _ | .lsrAbs _ _ | .lsrAbsX _ _ | .rolAcc | .rolZp _ | .rolZpX _
  | .rolAbs _ _ | .rolAbsX _ _ | .rorAcc | .rorZp _ | .rorZpX _ | .rorAbs _ _ | .rorAbsX _ _ | .rrfZp _
  | .clbZp _ _ | .clbAcc _ | .sebZp _ _ | .sebAcc _ | .clc | .sec | .cld | .sed | .cli | .sei | .clt | .set
  | .clv | .jmpAbs _ _ | .jmpInd _ _ | .jmpZpInd _ | .bra _ | .jsrAbs _ _ | .jsrZpInd _ | .jsrSpecial _ | .rts
  | .rti | .brk | .wit | .stp | .nop => false

/-- The cycle number of an instruction that runs at a state: the base number, the addition of the T mode, and 2 for a
branch that is taken (R360). -/
def cycles (i : Instr) (s : State) : Nat :=
  baseCycles i + (if s.flag .t then modeTCycles i.mnemonic else 0) + (if takesBranch i s then 2 else 0)

end Sys2Proof.Machine
end

