-- ==== Sys2Proof/Safety.lean ====
section
/-! DEFINITION. The terms that statements about the machine use: when an instruction runs and why it stops, what each
instruction may write (flags by R36, registers by R21 to R24, memory by the addresses its form stores to), the
invariant that every step keeps, and where a result, a stacked context and the flags of a value stand afterwards. -/

namespace Sys2Proof.Machine

open Sys2Proof Sys2Proof.Config

/-- Why `exec` refuses an instruction at a state, if it does: MUL and DIV on a product without them (R6), STP on a
product without it (R7), and `JMP ($hhFF)` (R69). -/
def stopReason (i : Instr) (s : State) : Option Refusal :=
  match i with
  | .mulZpX _ => if s.cfg.hasMulDiv then none else some (.undefinedOpcode 0x62)
  | .divZpX _ => if s.cfg.hasMulDiv then none else some (.undefinedOpcode 0xE2)
  | .stp => if s.cfg.stpMode = .absent then some (.undefinedOpcode 0x42) else none
  | .jmpInd ll _ => if ll = 0xFF then some .jmpIndirectPageEnd else none
  | .ldaImm _ | .ldaZp _ | .ldaZpX _ | .ldaAbs _ _ | .ldaAbsX _ _ | .ldaAbsY _ _ | .ldaIndX _ | .ldaIndY _
  | .ldmZp _ _ | .ldxImm _ | .ldxZp _ | .ldxZpY _ | .ldxAbs _ _ | .ldxAbsY _ _ | .ldyImm _ | .ldyZp _
  | .ldyZpX _ | .ldyAbs _ _ | .ldyAbsX _ _ | .staZp _ | .staZpX _ | .staAbs _ _ | .staAbsX _ _ | .staAbsY _ _
  | .staIndX _ | .staIndY _ | .stxZp _ | .stxZpY _ | .stxAbs _ _ | .styZp _ | .styZpX _ | .styAbs _ _ | .tax
  | .txa | .tay | .tya | .tsx | .txs | .pha | .php | .pla | .plp | .adcImm _ | .adcZp _ | .adcZpX _
  | .adcAbs _ _ | .adcAbsX _ _ | .adcAbsY _ _ | .adcIndX _ | .adcIndY _ | .sbcImm _ | .sbcZp _ | .sbcZpX _
  | .sbcAbs _ _ | .sbcAbsX _ _ | .sbcAbsY _ _ | .sbcIndX _ | .sbcIndY _ | .incAcc | .incZp _ | .incZpX _
  | .incAbs _ _ | .incAbsX _ _ | .decAcc | .decZp _ | .decZpX _ | .decAbs _ _ | .decAbsX _ _ | .inx | .dex
  | .iny | .dey | .andImm _ | .andZp _ | .andZpX _ | .andAbs _ _ | .andAbsX _ _ | .andAbsY _ _ | .andIndX _
  | .andIndY _ | .oraImm _ | .oraZp _ | .oraZpX _ | .oraAbs _ _ | .oraAbsX _ _ | .oraAbsY _ _ | .oraIndX _
  | .oraIndY _ | .eorImm _ | .eorZp _ | .eorZpX _ | .eorAbs _ _ | .eorAbsX _ _ | .eorAbsY _ _ | .eorIndX _
  | .eorIndY _ | .comZp _ | .bitZp _ | .bitAbs _ _ | .tstZp _ | .cmpImm _ | .cmpZp _ | .cmpZpX _ | .cmpAbs _ _
  | .cmpAbsX _ _ | .cmpAbsY _ _ | .cmpIndX _ | .cmpIndY _ | .cpxImm _ | .cpxZp _ | .cpxAbs _ _ | .cpyImm _
  | .cpyZp _ | .cpyAbs _ _ | .aslAcc | .aslZp _ | .aslZpX _ | .aslAbs _ _ | .aslAbsX _ _ | .lsrAcc | .lsrZp _
  | .lsrZpX _ | .lsrAbs _ _ | .lsrAbsX _ _ | .rolAcc | .rolZp _ | .rolZpX _ | .rolAbs _ _ | .rolAbsX _ _
  | .rorAcc | .rorZp _ | .rorZpX _ | .rorAbs _ _ | .rorAbsX _ _ | .rrfZp _ | .clbZp _ _ | .clbAcc _
  | .sebZp _ _ | .sebAcc _ | .clc | .sec | .cld | .sed | .cli | .sei | .clt | .set | .clv | .jmpAbs _ _
  | .jmpZpInd _ | .bra _ | .jsrAbs _ _ | .jsrZpInd _ | .jsrSpecial _ | .bbcAcc _ _ | .bbcZp _ _ _ | .bbsAcc _ _
  | .bbsZp _ _ _ | .bcc _ | .bcs _ | .bne _ | .beq _ | .bpl _ | .bmi _ | .bvc _ | .bvs _ | .rts | .rti | .brk
  | .wit | .nop => none

/-- The flags an instruction writes: the table of R36. -/
def flagsWritten : Mnemonic → List Flag
  | .lda | .ldx | .ldy | .tax | .txa | .tay | .tya | .tsx | .pla | .inc | .dec | .inx | .dex | .iny | .dey
  | .and | .ora | .eor | .com | .tst => [.n, .z]
  | .ldm | .sta | .stx | .sty | .txs | .pha | .php | .mul | .div | .rrf | .clb | .seb | .jmp | .bra | .jsr
  | .bbc | .bbs | .bcc | .bcs | .bne | .beq | .bpl | .bmi | .bvc | .bvs | .rts | .wit | .stp | .nop => []
  | .plp | .rti => [.n, .v, .t, .b, .d, .i, .z, .c]
  | .adc | .sbc => [.n, .v, .z, .c]
  | .bit => [.n, .v, .z]
  | .cmp | .cpx | .cpy | .asl | .lsr | .rol | .ror => [.n, .z, .c]
  | .clc | .sec => [.c]
  | .cld | .sed => [.d]
  | .cli | .sei => [.i]
  | .clt | .set => [.t]
  | .clv => [.v]
  | .brk => [.b, .i]

/-- An instruction may write A at a state (R21): five of the seven of the T mode and LDA only when T = 0. -/
def writesA (i : Instr) (s : State) : Bool :=
  match i.mnemonic with
  | .adc | .and | .eor | .ora | .sbc | .lda => !s.flag .t
  | .asl | .lsr | .rol | .ror | .inc | .dec => i.mode == .accumulator
  | .clb | .seb => i.mode == .accumulatorBit
  | .pla | .txa | .tya | .mul | .div => true
  | .ldm | .ldx | .ldy | .sta | .stx | .sty | .tax | .tay | .tsx | .txs | .pha | .php | .plp | .inx | .dex
  | .iny | .dey | .com | .bit | .tst | .cmp | .cpx | .cpy | .rrf | .clc | .sec | .cld | .sed | .cli | .sei
  | .clt | .set | .clv | .jmp | .bra | .jsr | .bbc | .bbs | .bcc | .bcs | .bne | .beq | .bpl | .bmi | .bvc
  | .bvs | .rts | .rti | .brk | .wit | .stp | .nop => false

/-- The instructions that write X (R22). -/
def writesX : Mnemonic → Bool
  | .ldx | .tax | .tsx | .inx | .dex => true
  | .lda | .ldm | .ldy | .sta | .stx | .sty | .txa | .tay | .tya | .txs | .pha | .php | .pla | .plp | .adc
  | .sbc | .inc | .dec | .iny | .dey | .mul | .div | .and | .ora | .eor | .com | .bit | .tst | .cmp | .cpx
  | .cpy | .asl | .lsr | .rol | .ror | .rrf | .clb | .seb | .clc | .sec | .cld | .sed | .cli | .sei | .clt
  | .set | .clv | .jmp | .bra | .jsr | .bbc | .bbs | .bcc | .bcs | .bne | .beq | .bpl | .bmi | .bvc | .bvs
  | .rts | .rti | .brk | .wit | .stp | .nop => false

/-- The instructions that write Y (R22). -/
def writesY : Mnemonic → Bool
  | .ldy | .tay | .iny | .dey => true
  | .lda | .ldm | .ldx | .sta | .stx | .sty | .tax | .txa | .tya | .tsx | .txs | .pha | .php | .pla | .plp
  | .adc | .sbc | .inc | .dec | .inx | .dex | .mul | .div | .and | .ora | .eor | .com | .bit | .tst | .cmp
  | .cpx | .cpy | .asl | .lsr | .rol | .ror | .rrf | .clb | .seb | .clc | .sec | .cld | .sed | .cli | .sei
  | .clt | .set | .clv | .jmp | .bra | .jsr | .bbc | .bbs | .bcc | .bcs | .bne | .beq | .bpl | .bmi | .bvc
  | .bvs | .rts | .rti | .brk | .wit | .stp | .nop => false

/-- The instructions that write S (R23). -/
def writesS : Mnemonic → Bool
  | .txs | .pha | .php | .pla | .plp | .mul | .div | .jsr | .rts | .rti | .brk => true
  | .lda | .ldm | .ldx | .ldy | .sta | .stx | .sty | .tax | .txa | .tay | .tya | .tsx | .adc | .sbc | .inc
  | .dec | .inx | .dex | .iny | .dey | .and | .ora | .eor | .com | .bit | .tst | .cmp | .cpx | .cpy | .asl
  | .lsr | .rol | .ror | .rrf | .clb | .seb | .clc | .sec | .cld | .sed | .cli | .sei | .clt | .set | .clv
  | .jmp | .bra | .bbc | .bbs | .bcc | .bcs | .bne | .beq | .bpl | .bmi | .bvc | .bvs | .wit | .stp | .nop => false

/-- The instructions that write PC themselves (R24); every other one advances it by its length (R25). -/
def transfersControl : Mnemonic → Bool
  | .jmp | .bra | .jsr | .bbc | .bbs | .bcc | .bcs | .bne | .beq | .bpl | .bmi | .bvc | .bvs | .rts | .rti
  | .brk => true
  | .lda | .ldm | .ldx | .ldy | .sta | .stx | .sty | .tax | .txa | .tay | .tya | .tsx | .txs | .pha | .php
  | .pla | .plp | .adc | .sbc | .inc | .dec | .inx | .dex | .iny | .dey | .mul | .div | .and | .ora | .eor
  | .com | .bit | .tst | .cmp | .cpx | .cpy | .asl | .lsr | .rol | .ror | .rrf | .clb | .seb | .clc | .sec
  | .cld | .sed | .cli | .sei | .clt | .set | .clv | .wit | .stp | .nop => false

/-- The addresses to which a list of bytes is pushed, one after the other (R64). -/
def pushAddrs : State → List Byte → List Addr
  | _, [] => []
  | s, v :: vs => s.stackAddr s.sp :: pushAddrs (s.push v) vs

/-- The addresses to which the context is saved when an exception is taken (R281, R306). -/
def contextAddrs (s : State) (brk : Bool) (ret : Addr) : List Addr :=
  let t := s.setFlag .b brk
  pushAddrs t [hiByte ret, loByte ret, t.ps]

/-- The addresses to which the entry for a source stores: its request bit's byte, then the context (R306). -/
def entryAddrs (s : State) (k : IntSource) : List Addr :=
  k.request.addr :: contextAddrs (s.setBitAt k.request false) false s.pc

/-- The addresses to which BRK stores (R281; with a source pending, R319). -/
def breakAddrs (s : State) : List Addr :=
  contextAddrs s true (s.pc + 2) ++
    match s.firstPending with
    | none => []
    | some k =>
      match s.cfg.brkWithPending with
      | .stayPending => []
      | .sourceVector => [k.request.addr]
      | .entryAfter => entryAddrs s.takeBreak k

/-- The destination in memory of an instruction of the T mode: M(X) when `PS.T = 1`, nothing when it is 0 (R141). -/
def modeTAddrs (s : State) : List Addr := if s.flag .t then [zpAddr s.x] else []

/-- The addresses an instruction's form stores to at a state. -/
def storedAddrs (i : Instr) (s : State) : List Addr :=
  match i with
  | .ldaImm _ | .ldaZp _ | .ldaZpX _ | .ldaAbs _ _ | .ldaAbsX _ _ | .ldaAbsY _ _ | .ldaIndX _ | .ldaIndY _
  | .adcImm _ | .adcZp _ | .adcZpX _ | .adcAbs _ _ | .adcAbsX _ _ | .adcAbsY _ _ | .adcIndX _ | .adcIndY _
  | .sbcImm _ | .sbcZp _ | .sbcZpX _ | .sbcAbs _ _ | .sbcAbsX _ _ | .sbcAbsY _ _ | .sbcIndX _ | .sbcIndY _
  | .andImm _ | .andZp _ | .andZpX _ | .andAbs _ _ | .andAbsX _ _ | .andAbsY _ _ | .andIndX _ | .andIndY _
  | .oraImm _ | .oraZp _ | .oraZpX _ | .oraAbs _ _ | .oraAbsX _ _ | .oraAbsY _ _ | .oraIndX _ | .oraIndY _
  | .eorImm _ | .eorZp _ | .eorZpX _ | .eorAbs _ _ | .eorAbsX _ _ | .eorAbsY _ _ | .eorIndX _ | .eorIndY _ => modeTAddrs s
  | .staZp zz | .stxZp zz | .styZp zz | .incZp zz | .decZp zz | .comZp zz | .aslZp zz | .lsrZp zz | .rolZp zz
  | .rorZp zz | .rrfZp zz => [EaMode.ea (.zp zz) s]
  | .staZpX zz | .styZpX zz | .incZpX zz | .decZpX zz | .aslZpX zz | .lsrZpX zz | .rolZpX zz | .rorZpX zz => [EaMode.ea (.zpX zz) s]
  | .stxZpY zz => [EaMode.ea (.zpY zz) s]
  | .staAbs ll hh | .stxAbs ll hh | .styAbs ll hh | .incAbs ll hh | .decAbs ll hh | .aslAbs ll hh
  | .lsrAbs ll hh | .rolAbs ll hh | .rorAbs ll hh => [EaMode.ea (.abs ll hh) s]
  | .staAbsX ll hh | .incAbsX ll hh | .decAbsX ll hh | .aslAbsX ll hh | .lsrAbsX ll hh | .rolAbsX ll hh
  | .rorAbsX ll hh => [EaMode.ea (.absX ll hh) s]
  | .staAbsY ll hh => [EaMode.ea (.absY ll hh) s]
  | .staIndX zz => [EaMode.ea (.indX zz) s]
  | .staIndY zz => [EaMode.ea (.indY zz) s]
  | .ldmZp _ zz => [zpAddr zz]
  | .clbZp _ zz | .sebZp _ zz => [zpAddr zz]
  | .pha | .php | .mulZpX _ | .divZpX _ => [s.stackAddr s.sp]
  | .jsrAbs _ _ => pushAddrs s [hiByte (s.pc + 2), loByte (s.pc + 2)]
  | .jsrSpecial _ | .jsrZpInd _ => pushAddrs s [hiByte (s.pc + 1), loByte (s.pc + 1)]
  | .brk => breakAddrs s
  | .ldxImm _ | .ldxZp _ | .ldxZpY _ | .ldxAbs _ _ | .ldxAbsY _ _ | .ldyImm _ | .ldyZp _ | .ldyZpX _
  | .ldyAbs _ _ | .ldyAbsX _ _ | .tax | .txa | .tay | .tya | .tsx | .txs | .pla | .plp | .incAcc | .decAcc
  | .inx | .dex | .iny | .dey | .bitZp _ | .bitAbs _ _ | .tstZp _ | .cmpImm _ | .cmpZp _ | .cmpZpX _
  | .cmpAbs _ _ | .cmpAbsX _ _ | .cmpAbsY _ _ | .cmpIndX _ | .cmpIndY _ | .cpxImm _ | .cpxZp _ | .cpxAbs _ _
  | .cpyImm _ | .cpyZp _ | .cpyAbs _ _ | .aslAcc | .lsrAcc | .rolAcc | .rorAcc | .clbAcc _ | .sebAcc _ | .clc
  | .sec | .cld | .sed | .cli | .sei | .clt | .set | .clv | .jmpAbs _ _ | .jmpInd _ _ | .jmpZpInd _ | .bra _
  | .bbcAcc _ _ | .bbcZp _ _ _ | .bbsAcc _ _ | .bbsZp _ _ _ | .bcc _ | .bcs _ | .bne _ | .beq _ | .bpl _
  | .bmi _ | .bvc _ | .bvs _ | .rts | .rti | .wit | .stp | .nop => []

/-- The invariant every step keeps: the memory is in canonical form, a standby state holds no hazard history, since
neither WIT nor STP leaves one (R45, R46), and nothing is left on the bus at a boundary. -/
def State.Inv (s : State) : Prop := s.mem.wf ∧ (s.run ≠ .running → s.prev = Prev.other) ∧ s.bus = {}

/-- No input arrives at this boundary or inside what follows it, and no source is accepted at it: the CPU goes on by itself. -/
def State.Quiet (s : State) : Prop := s.input = {} ∧ s.accepted {} = none

/-- Every flag but the listed ones is the same in two states. -/
def SameFlagsBut (s t : State) (fs : List Flag) : Prop := ∀ f, f ∉ fs → t.flag f = s.flag f

/-- N is bit 7 of a value and Z says that it is zero (R14). -/
def State.NZOf (t : State) (v : Byte) : Prop := t.flag .n = v.getLsbD 7 ∧ t.flag .z = decide (v.toNat = 0)

/-- The byte at an address after `v` was written there: `v`, or the old byte where no write reaches it (R73). -/
def State.WrittenAt (s t : State) (a : Addr) (v : Byte) : Prop :=
  t.peek a = if writable s.cfg a then v else s.peek a

/-- A result has gone to the destination that T selects: to A, or to M(X) with A unchanged (R141). -/
def State.PutByT (s t : State) (r : Byte) : Prop :=
  (s.flag .t = false → t.a = r) ∧ (s.flag .t = true → t.a = s.a ∧ s.WrittenAt t (zpAddr s.x) r)

/-- The operand of an instruction that works on A (`none`) or on a byte of memory. -/
def State.valueAt (s : State) : Option EaMode → Byte
  | none => s.a
  | some m => s.read .operand (m.ea s)

/-- The result of such an instruction is in its place: A, or the same byte of memory. -/
def State.HoldsAt (s t : State) (p : Option EaMode) (r : Byte) : Prop :=
  match p with
  | none => t.a = r
  | some m => s.WrittenAt t (m.ea s) r

/-- An address holds RAM or ROM and none of the bits that the CPU itself uses (R41, R44), so that it reads as it is stored
whatever the devices do. -/
def State.Plain (s : State) (a : Addr) : Prop := s.fetchable a = true ∧ ∀ l ∈ controlBits s.cfg, l.addr ≠ a

/-- A source requests to be accepted: I is 0, and its request and enable bits are set (R304) or it is a raced one that
the devices let through (R323). -/
def State.Requests (s : State) (inp : Input) (k : IntSource) : Prop :=
  s.flag .i = false ∧
    (s.bitAt k.request = true ∧ s.bitAt k.enable = true ∨ k ∈ inp.racedTaken ∧ k ∈ s.prev.raced)

/-- The next `n` bytes of the stack are RAM and hold no bit that the CPU itself uses (R41, R44), so that pushing onto
them does what the manual draws. -/
def State.StackSafe (s : State) (n : Nat) : Prop :=
  ∀ k < n, classOf s.cfg (s.stackAddr (s.sp - BitVec.ofNat 8 k)) = .ram ∧
    ∀ l ∈ controlBits s.cfg, l.addr ≠ s.stackAddr (s.sp - BitVec.ofNat 8 k)

/-- `t` has saved the context of `s` (R281, R306): `S` is three less, I is 1 and B as given, the other flags are kept;
where the stack is safe it holds PCH, PCL and `PS`, the pushed `PS` with the new B and the old I. -/
def State.SavedContext (s t : State) (ret : Addr) (brk : Bool) : Prop :=
  t.sp = s.sp - 3 ∧ t.flag .i = true ∧ t.flag .b = brk ∧ SameFlagsBut s t [.i, .b] ∧
    (s.StackSafe 3 →
      (t.peek (s.stackAddr s.sp)).toNat = ret.toNat / 256 ∧
      (t.peek (s.stackAddr (s.sp - 1))).toNat = ret.toNat % 256 ∧
      ∀ f : Flag, (t.peek (s.stackAddr (s.sp - 2))).getLsbD f.bit = if f = .b then brk else s.flag f)

end Sys2Proof.Machine
end

