-- ==== Sys2Proof/Certificates/Slice0/Obligations.lean ====
section
/-! DEFINITION. The statements for the provers, from the numbered rules of the spec. A row `(i, o, bs, c)` of
`Rows.<page>` is one line of an instruction's page: the instruction, its operand, its bytes and its cycle number. What
an instruction leaves unchanged is said for all of them by `FlagFrame`, `RegisterFrame`, `MemoryFrame` and
`HiddenFrame`. -/

section

open Sys2Proof Sys2Proof.Config Sys2Proof.Machine

/-! ## Encoding -/

/-- Decoding the bytes of a well-formed instruction gives the instruction and what follows it (R93, R94, R97). -/
def Obligations.DecodeEncodeAgree : Prop :=
  ∀ (i : Instr) (rest : List Byte), i.wellFormed = true → decodeBytes (encode i ++ rest) = .ok (i, rest)

/-- What decodes to an instruction is that instruction's encoding, and the instruction is well formed (R94). -/
def Obligations.EncodeDecodeAgree : Prop :=
  ∀ (i : Instr) (bs rest : List Byte), decodeBytes bs = .ok (i, rest) → i.wellFormed = true ∧ bs = encode i ++ rest

/-- The length of an instruction by the low half of its op-code: the table of R96. -/
def Obligations.LengthByColumn : Prop :=
  ∀ i : Instr, i.wellFormed = true → ∃ op, (encode i).head? = some op ∧
    i.length =
      match op.toNat % 16 with
      | 0 => if op = 0x00 ∨ op = 0x40 ∨ op = 0x60 then 1 else if op = 0x20 then 3 else 2
      | 2 => if op = 0x12 ∨ op = 0x32 ∨ op = 0x42 ∨ op = 0xC2 then 1 else 2
      | 7 | 12 | 13 | 14 => 3
      | 8 | 10 | 11 => 1
      | 9 => if op.toNat / 16 % 2 = 0 then 2 else 3
      | _ => 2

/-- Words of the manual's own examples decode to the instructions they stand for (R113, R97). -/
def Obligations.SpecWordsDecode : Prop :=
  decodeBytes [0x69, 0xA5] = .ok (.adcImm 0xA5, []) ∧
  decodeBytes [0x6D, 0x12, 0xAD] = .ok (.adcAbs 0x12 0xAD, []) ∧
  decodeBytes [0xB6, 0x62] = .ok (.ldxZpY 0x62, []) ∧
  decodeBytes [0x2A] = .ok (.rolAcc, []) ∧
  decodeBytes [0x6C, 0x00, 0x14] = .ok (.jmpInd 0x00 0x14, []) ∧
  decodeBytes [0x22, 0xC0] = .ok (.jsrSpecial 0xC0, []) ∧
  decodeBytes [0xBF, 0x44] = .ok (.clbZp 5 0x44, []) ∧
  decodeBytes [0xB7, 0x04, 0xF1] = .ok (.bbcZp 5 0x04 0xF1, [])

/-- The 25 op-codes that are not instructions (R110). -/
def Rows.undefinedOps : List Byte :=
  [0x04, 0x0C, 0x14, 0x1C, 0x34, 0x52, 0x54, 0x5A, 0x5C, 0x72, 0x74, 0x7A, 0x7C, 0x89, 0x92, 0x9C, 0x9E, 0xD2, 0xD4,
    0xDA, 0xDC, 0xF2, 0xF4, 0xFA, 0xFC]

/-- The 25 op-codes that are not instructions are the only ones the decoder rejects, and a step that fetches one has no
successor (R110; the refusal is the spec's decision D11, log entry 14; that it is this one right after a PLP too is the
model's choice, log entry 30). -/
def Obligations.UndefinedOpcodesRefused : Prop :=
  ∀ op : Byte,
    (op ∈ Rows.undefinedOps →
      (∀ rest, decodeBytes (op :: rest) = .error (.undefinedOpcode op)) ∧
      ∀ s : State, s.Quiet → s.run = .running → s.fetchable s.pc = true → s.peek s.pc = op →
        step s = .refused (.undefinedOpcode op)) ∧
    (op ∉ Rows.undefinedOps →
      ∀ o1 o2 : Byte, ∃ i rest, decodeBytes [op, o1, o2] = .ok (i, rest))

/-- The fetch of an instruction byte from a device register or from no memory has no successor; of an op-code whose
instruction the product lacks, no operand byte is fetched (R73, R111; the refusal is the spec's decision D7, log entry
29; the wrap of the addresses is its decision D4, log entry 19; that it is this one right after a PLP too is the model's
choice, log entry 30). -/
def Obligations.FetchNeedsMemory : Prop :=
  ∀ s : State, s.Quiet → s.run = .running →
    (s.fetchable s.pc = false → step s = .refused (.fetchFromNonMemory s.pc)) ∧
    ∀ (i : Instr) (rest : List Byte) (k : Nat),
      decodeBytes [s.peek s.pc, s.peek (s.pc + 1), s.peek (s.pc + 2)] = .ok (i, rest) → k < i.length →
      lacks s.cfg (s.peek s.pc) = false → (∀ j < k, s.fetchable (s.pc + BitVec.ofNat 16 j) = true) →
      s.fetchable (s.pc + BitVec.ofNat 16 k) = false →
      step s = .refused (.fetchFromNonMemory (s.pc + BitVec.ofNat 16 k))

/-! ## The step -/

/-- When no reset comes and no source is accepted, and the bytes at PC decode to a well-formed instruction that no
hazard rule forbids here, the step of a running CPU is the instruction's meaning, run after the boundary's requests have
arrived; around it the step uses up the boundary's input, lands the requests that arrive inside the instruction, writes
the hazard history, and numbers the next step (R94, R46, R76; the inputs and the step's number are the model's, log
entries 7 and 2; the wrap of the addresses of its bytes is the spec's decision D4, log entry 19). -/
def Obligations.StepRunsDecodedInstruction : Prop :=
  ∀ (s u : State) (i : Instr) (rest : List Byte), u = s.landed → s.input.reset = none → u.accepted s.input = none →
    s.run = .running → decodeBytes [u.peek u.pc, u.peek (u.pc + 1), u.peek (u.pc + 2)] = .ok (i, rest) →
    i.wellFormed = true → (∀ k < i.length, u.fetchable (u.pc + BitVec.ofNat 16 k) = true) → hazard i u = none →
    u.inputs = s.inputs.tail ∧ u.bus = { arrivals := s.input.during } ∧
    step s =
      match exec i u with
      | .next t => .next { t.settle with prev := prevAfter i u t, draws := t.draws + 1 }
      | .fault f => .fault f
      | .refused r => .refused r

/-- Every step keeps the invariant: the memory is in canonical form, a standby state holds no hazard history, and nothing
is left on the bus. -/
def Obligations.StepKeepsInvariant : Prop := ∀ s t : State, s.Inv → step s = .next t → t.Inv

/-- No step changes a byte of ROM: not a store, not an interrupt entry, not a reset (R73, R346; log entries 9, 23). -/
def Obligations.StepKeepsRom : Prop :=
  ∀ (s t : State) (a : Addr), step s = .next t → classOf s.cfg a = .rom → t.peek a = s.peek a

/-- No step changes the product's parameters, and each uses up one boundary's input (R18, R47; the
product, the inputs and the step's number in the state are the model's, log entries 1, 7 and 2). -/
def Obligations.StepKeepsProduct : Prop :=
  ∀ s t : State, step s = .next t → t.cfg = s.cfg ∧ t.inputs = s.inputs.tail ∧ t.draws = s.draws + 1

/-! ## Frames: what every instruction leaves unchanged -/

/-- An instruction changes no flag that the table of R36 does not give it. -/
def Obligations.FlagFrame : Prop :=
  ∀ (i : Instr) (s t : State), exec i s = .next t → SameFlagsBut s t (flagsWritten i.mnemonic)

/-- An instruction changes A, X, Y and S only where R21, R22 and R23 name it. -/
def Obligations.RegisterFrame : Prop :=
  ∀ (i : Instr) (s t : State), exec i s = .next t →
    (writesA i s = false → t.a = s.a) ∧ (writesX i.mnemonic = false → t.x = s.x) ∧
    (writesY i.mnemonic = false → t.y = s.y) ∧ (writesS i.mnemonic = false → t.sp = s.sp)

/-- An instruction leaves every byte of memory as it was but those at the addresses its form stores to, and every other
address reads as before, but for a request bit that a device sets meanwhile (R76). -/
def Obligations.MemoryFrame : Prop :=
  ∀ (i : Instr) (s t : State) (a : Addr), exec i s = .next t → a ∉ storedAddrs i s →
    t.peek a = s.peek a ∧
    (s.bus.arrivals = [] ∨ (∀ k ∈ s.cfg.sources, k.request.addr ≠ a) → ∀ d : Draw, t.read d a = s.read d a)

/-- No instruction itself touches the hazard history, the product's parameters, the inputs or the step's number; one that
stores nothing leaves memory and the bus alone; only WIT and STP leave the running state (R45, R46; the product, the
inputs, the step's number and the bus in the state are the model's own fields, log entries 1, 7, 2 and 7). -/
def Obligations.HiddenFrame : Prop :=
  ∀ (i : Instr) (s t : State), exec i s = .next t →
    t.prev = s.prev ∧ t.cfg = s.cfg ∧ t.inputs = s.inputs ∧ t.draws = s.draws ∧
    (storedAddrs i s = [] → t.mem = s.mem ∧ t.bus = s.bus) ∧
    (i ≠ .wit → i ≠ .stp → i ≠ .brk → t.run = s.run) ∧ (i = .brk → s.run = .running → t.run = .running)

/-- An instruction that does not transfer control leaves PC at the next instruction, modulo 65536 (R15, R25; the wrap is
the spec's decision D4, log entry 19). -/
def Obligations.SequentialAdvance : Prop :=
  ∀ (i : Instr) (s t : State), exec i s = .next t → transfersControl i.mnemonic = false →
    t.pc.toNat = (s.pc.toNat + i.length) % 65536

/-- Every instruction completes at every state, but for the four the rules refuse: MUL and DIV on a product without
them, STP on a product without it, `JMP ($hhFF)` (R69, R111, R320; log entries 14 and 15). -/
def Obligations.ExecCompletesOrStops : Prop :=
  ∀ (i : Instr) (s : State),
    (stopReason i s = none → ∃ t, exec i s = .next t) ∧ ∀ r, stopReason i s = some r → exec i s = .refused r

/-! ## Addresses -/

/-- The effective address of each mode, as a number (the table of R140; the wraps at the top of memory and of a
pointer's second byte are the spec's decisions D4 and D6, log entry 19). -/
def Obligations.EffectiveAddresses : Prop :=
  ∀ (s : State) (zz ll hh : Byte),
    ((EaMode.zp zz).ea s).toNat = zz.toNat ∧
    ((EaMode.zpX zz).ea s).toNat = (zz.toNat + s.x.toNat) % 256 ∧
    ((EaMode.zpY zz).ea s).toNat = (zz.toNat + s.y.toNat) % 256 ∧
    ((EaMode.abs ll hh).ea s).toNat = 256 * hh.toNat + ll.toNat ∧
    ((EaMode.absX ll hh).ea s).toNat = (256 * hh.toNat + ll.toNat + s.x.toNat) % 65536 ∧
    ((EaMode.absY ll hh).ea s).toNat = (256 * hh.toNat + ll.toNat + s.y.toNat) % 65536 ∧
    (∀ l h : Addr, l.toNat = (zz.toNat + s.x.toNat) % 256 → h.toNat = (zz.toNat + s.x.toNat + 1) % 256 →
      ((EaMode.indX zz).ea s).toNat = 256 * (s.read .pointerHi h).toNat + (s.read .pointerLo l).toNat) ∧
    (∀ l h : Addr, l.toNat = zz.toNat → h.toNat = (zz.toNat + 1) % 256 →
      ((EaMode.indY zz).ea s).toNat =
        (256 * (s.read .pointerHi h).toNat + (s.read .pointerLo l).toNat + s.y.toNat) % 65536)

/-- A stack address is the stack page and `S`; the page is 0 or 1, and where it is a register bit it is that bit as it
is now (R41, R63). -/
def Obligations.StackAddresses : Prop :=
  ∀ (s : State) (z : Byte),
    (s.stackAddr z).toNat = 256 * s.stackPage.toNat + z.toNat ∧
    (∀ one, s.cfg.stackPage = .fixed one → s.stackPage.toNat = one.toNat) ∧
    ∀ l, s.cfg.stackPage = .selectionBit l → s.stackPage.toNat = ((s.peek l.addr).getLsbD l.bit).toNat

/-! ## Data transfer -/

/-- The lines of the pages of LDA (R151). -/
def Rows.lda (nn zz ll hh : Byte) : List (Instr × Operand × List Byte × Nat) :=
  [(.ldaImm nn, .imm nn, [0xA9, nn], 2), (.ldaZp zz, .mem (.zp zz), [0xA5, zz], 3),
    (.ldaZpX zz, .mem (.zpX zz), [0xB5, zz], 4), (.ldaAbs ll hh, .mem (.abs ll hh), [0xAD, ll, hh], 4),
    (.ldaAbsX ll hh, .mem (.absX ll hh), [0xBD, ll, hh], 5), (.ldaAbsY ll hh, .mem (.absY ll hh), [0xB9, ll, hh], 5),
    (.ldaIndX zz, .mem (.indX zz), [0xA1, zz], 6), (.ldaIndY zz, .mem (.indY zz), [0xB1, zz], 6)]

/-- LDA: the operand goes to A, or to M(X) with A unchanged when T = 1; N and Z are those of the operand (R151). -/
def Obligations.LdaLoads : Prop :=
  ∀ (s : State) (nn zz ll hh : Byte) (i : Instr) (o : Operand) (bs : List Byte) (c : Nat),
    (i, o, bs, c) ∈ Rows.lda nn zz ll hh →
    encode i = bs ∧ cycles i s = c + (if s.flag .t then 2 else 0) ∧
    ∃ t, exec i s = .next t ∧ s.PutByT t (o.value s) ∧ t.NZOf (o.value s) ∧ SameFlagsBut s t [.n, .z]

/-- The lines of the pages of LDX (R153). -/
def Rows.ldx (nn zz ll hh : Byte) : List (Instr × Operand × List Byte × Nat) :=
  [(.ldxImm nn, .imm nn, [0xA2, nn], 2), (.ldxZp zz, .mem (.zp zz), [0xA6, zz], 3),
    (.ldxZpY zz, .mem (.zpY zz), [0xB6, zz], 4), (.ldxAbs ll hh, .mem (.abs ll hh), [0xAE, ll, hh], 4),
    (.ldxAbsY ll hh, .mem (.absY ll hh), [0xBE, ll, hh], 5)]

/-- The lines of the pages of LDY (R154). -/
def Rows.ldy (nn zz ll hh : Byte) : List (Instr × Operand × List Byte × Nat) :=
  [(.ldyImm nn, .imm nn, [0xA0, nn], 2), (.ldyZp zz, .mem (.zp zz), [0xA4, zz], 3),
    (.ldyZpX zz, .mem (.zpX zz), [0xB4, zz], 4), (.ldyAbs ll hh, .mem (.abs ll hh), [0xAC, ll, hh], 4),
    (.ldyAbsX ll hh, .mem (.absX ll hh), [0xBC, ll, hh], 5)]

/-- LDX and LDY: the index register takes the operand; N and Z are those of the operand (R153, R154). -/
def Obligations.LdxLdyLoad : Prop :=
  ∀ (s : State) (nn zz ll hh : Byte) (i : Instr) (o : Operand) (bs : List Byte) (c : Nat),
    ((i, o, bs, c) ∈ Rows.ldx nn zz ll hh →
      encode i = bs ∧ cycles i s = c ∧
      ∃ t, exec i s = .next t ∧ t.x = o.value s ∧ t.NZOf (o.value s) ∧ SameFlagsBut s t [.n, .z]) ∧
    ((i, o, bs, c) ∈ Rows.ldy nn zz ll hh →
      encode i = bs ∧ cycles i s = c ∧
      ∃ t, exec i s = .next t ∧ t.y = o.value s ∧ t.NZOf (o.value s) ∧ SameFlagsBut s t [.n, .z])

/-- The lines of the pages of STA, STX, STY and LDM (R152, R155, R156, R157). -/
def Rows.store (s : State) (nn zz ll hh : Byte) : List (Instr × EaMode × Byte × List Byte × Nat) :=
  [(.staZp zz, .zp zz, s.a, [0x85, zz], 4), (.staZpX zz, .zpX zz, s.a, [0x95, zz], 5),
    (.staAbs ll hh, .abs ll hh, s.a, [0x8D, ll, hh], 5), (.staAbsX ll hh, .absX ll hh, s.a, [0x9D, ll, hh], 6),
    (.staAbsY ll hh, .absY ll hh, s.a, [0x99, ll, hh], 6), (.staIndX zz, .indX zz, s.a, [0x81, zz], 7),
    (.staIndY zz, .indY zz, s.a, [0x91, zz], 7), (.stxZp zz, .zp zz, s.x, [0x86, zz], 4),
    (.stxZpY zz, .zpY zz, s.x, [0x96, zz], 5), (.stxAbs ll hh, .abs ll hh, s.x, [0x8E, ll, hh], 5),
    (.styZp zz, .zp zz, s.y, [0x84, zz], 4), (.styZpX zz, .zpX zz, s.y, [0x94, zz], 5),
    (.styAbs ll hh, .abs ll hh, s.y, [0x8C, ll, hh], 5), (.ldmZp nn zz, .zp zz, nn, [0x3C, nn, zz], 4)]

/-- STA, STX, STY and LDM: the register, or for LDM the first operand byte, is written at the effective address, and no
flag and no register changes (R152, R155, R156, R157). -/
def Obligations.StoresWrite : Prop :=
  ∀ (s : State) (nn zz ll hh : Byte) (i : Instr) (m : EaMode) (v : Byte) (bs : List Byte) (c : Nat),
    (i, m, v, bs, c) ∈ Rows.store s nn zz ll hh →
    encode i = bs ∧ cycles i s = c ∧
    ∃ t, exec i s = .next t ∧ s.WrittenAt t (m.ea s) v ∧ t.ps = s.ps ∧ t.a = s.a ∧ t.x = s.x ∧
      t.y = s.y ∧ t.sp = s.sp

/-- The six transfers: the register named last takes the other, which does not change; N and Z are those of the value,
but TXS changes no flag (R158 to R163). -/
def Obligations.TransfersCopy : Prop :=
  ∀ (s : State) (i : Instr) (src dst : State → Byte) (op : Byte) (fs : List Flag),
    (i = .tax ∧ src = State.a ∧ dst = State.x ∧ op = 0xAA ∧ fs = [.n, .z] ∨
      i = .txa ∧ src = State.x ∧ dst = State.a ∧ op = 0x8A ∧ fs = [.n, .z] ∨
      i = .tay ∧ src = State.a ∧ dst = State.y ∧ op = 0xA8 ∧ fs = [.n, .z] ∨
      i = .tya ∧ src = State.y ∧ dst = State.a ∧ op = 0x98 ∧ fs = [.n, .z] ∨
      i = .tsx ∧ src = State.sp ∧ dst = State.x ∧ op = 0xBA ∧ fs = [.n, .z] ∨
      i = .txs ∧ src = State.x ∧ dst = State.sp ∧ op = 0x9A ∧ fs = []) →
    encode i = [op] ∧ cycles i s = 2 ∧
    ∃ t, exec i s = .next t ∧ dst t = src s ∧ src t = src s ∧ (fs ≠ [] → t.NZOf (src s)) ∧ SameFlagsBut s t fs

/-- The lines of the pages of PHA and PHP (R164, R166). -/
def Rows.push (s : State) : List (Instr × Byte × Byte) :=
  [(.pha, s.a, 0x48), (.php, s.ps, 0x08)]

/-- PHA and PHP: the byte is written at the stack address, then `S` is decremented; no flag changes (R164, R166; the
wraps of `S` and PC are the spec's decisions D5 and D4, log entry 19). -/
def Obligations.PhaPhpPush : Prop :=
  ∀ (s : State) (i : Instr) (v : Byte) (op : Byte),
    (i, v, op) ∈ Rows.push s →
    encode i = [op] ∧ cycles i s = 3 ∧
    ∃ t, exec i s = .next t ∧ s.WrittenAt t (s.stackAddr s.sp) v ∧ t.sp.toNat = (s.sp.toNat + 255) % 256 ∧
      t.ps = s.ps ∧ t.pc = s.pc + 1

/-- PLA and PLP: `S` is incremented and the byte there goes to A, with its N and Z, or to all of `PS` (R167, R168; the
wraps of `S` and PC are the spec's decisions D5 and D4, log entry 19). -/
def Obligations.PlaPlpPull : Prop :=
  ∀ (s : State) (z : Byte), z.toNat = (s.sp.toNat + 1) % 256 →
    (encode .pla = [0x68] ∧ cycles .pla s = 4 ∧
      ∃ t, exec .pla s = .next t ∧ t.a = s.read .pull1 (s.stackAddr z) ∧ t.sp = z ∧ t.NZOf t.a ∧
        SameFlagsBut s t [.n, .z] ∧ t.pc = s.pc + 1) ∧
    (encode .plp = [0x28] ∧ cycles .plp s = 4 ∧
      ∃ t, exec .plp s = .next t ∧ t.ps = s.read .pull1 (s.stackAddr z) ∧ t.sp = z ∧ t.pc = s.pc + 1)

/-! ## Arithmetic -/

/-- The lines of the pages of ADC (R181). -/
def Rows.adc (nn zz ll hh : Byte) : List (Instr × Operand × List Byte × Nat) :=
  [(.adcImm nn, .imm nn, [0x69, nn], 2), (.adcZp zz, .mem (.zp zz), [0x65, zz], 3),
    (.adcZpX zz, .mem (.zpX zz), [0x75, zz], 4), (.adcAbs ll hh, .mem (.abs ll hh), [0x6D, ll, hh], 4),
    (.adcAbsX ll hh, .mem (.absX ll hh), [0x7D, ll, hh], 5), (.adcAbsY ll hh, .mem (.absY ll hh), [0x79, ll, hh], 5),
    (.adcIndX zz, .mem (.indX zz), [0x61, zz], 6), (.adcIndY zz, .mem (.indY zz), [0x71, zz], 6)]

/-- ADC with D = 0: the sum with the carry, the carry out of 255, the signed overflow, N and Z (R181; the destination
R180). -/
def Obligations.AdcBinary : Prop :=
  ∀ (s : State) (nn zz ll hh : Byte) (i : Instr) (o : Operand) (bs : List Byte) (c : Nat) (d m : Byte),
    (i, o, bs, c) ∈ Rows.adc nn zz ll hh →
    m = o.value s → d = (if s.flag .t then s.read .mx (zpAddr s.x) else s.a) → s.flag .d = false →
    encode i = bs ∧ cycles i s = c + (if s.flag .t then 3 else 0) ∧
    ∃ t r, exec i s = .next t ∧ s.PutByT t r ∧ r.toNat = (d.toNat + m.toNat + (s.flag .c).toNat) % 256 ∧
      t.flag .c = decide (d.toNat + m.toNat + (s.flag .c).toNat > 255) ∧
      (t.flag .v = true ↔ d.toInt + m.toInt + (s.flag .c).toNat > 127 ∨ d.toInt + m.toInt + (s.flag .c).toNat < -128) ∧
      (t.flag .v = true ↔ d.getLsbD 7 = m.getLsbD 7 ∧ r.getLsbD 7 ≠ d.getLsbD 7) ∧
      t.NZOf r ∧ SameFlagsBut s t [.n, .v, .z, .c]

/-- The lines of the pages of SBC (R182). -/
def Rows.sbc (nn zz ll hh : Byte) : List (Instr × Operand × List Byte × Nat) :=
  [(.sbcImm nn, .imm nn, [0xE9, nn], 2), (.sbcZp zz, .mem (.zp zz), [0xE5, zz], 3),
    (.sbcZpX zz, .mem (.zpX zz), [0xF5, zz], 4), (.sbcAbs ll hh, .mem (.abs ll hh), [0xED, ll, hh], 4),
    (.sbcAbsX ll hh, .mem (.absX ll hh), [0xFD, ll, hh], 5), (.sbcAbsY ll hh, .mem (.absY ll hh), [0xF9, ll, hh], 5),
    (.sbcIndX zz, .mem (.indX zz), [0xE1, zz], 6), (.sbcIndY zz, .mem (.indY zz), [0xF1, zz], 6)]

/-- SBC with D = 0: the difference with the borrow, C when there is none, the signed overflow, N and Z (R182; the
destination R180). -/
def Obligations.SbcBinary : Prop :=
  ∀ (s : State) (nn zz ll hh : Byte) (i : Instr) (o : Operand) (bs : List Byte) (c : Nat) (d m : Byte),
    (i, o, bs, c) ∈ Rows.sbc nn zz ll hh →
    m = o.value s → d = (if s.flag .t then s.read .mx (zpAddr s.x) else s.a) → s.flag .d = false →
    encode i = bs ∧ cycles i s = c + (if s.flag .t then 3 else 0) ∧
    ∃ t r, exec i s = .next t ∧ s.PutByT t r ∧
      (r.toNat : Int) = ((d.toNat : Int) - m.toNat - (1 - (s.flag .c).toNat)) % 256 ∧
      r.toNat = (d.toNat + (~~~m).toNat + (s.flag .c).toNat) % 256 ∧
      t.flag .c = decide ((d.toNat : Int) - m.toNat - (1 - (s.flag .c).toNat) ≥ 0) ∧
      (t.flag .v = true ↔ d.toInt - m.toInt - (1 - (s.flag .c).toNat) > 127 ∨
        d.toInt - m.toInt - (1 - (s.flag .c).toNat) < -128) ∧
      (t.flag .v = true ↔ d.getLsbD 7 ≠ m.getLsbD 7 ∧ r.getLsbD 7 ≠ d.getLsbD 7) ∧
      t.NZOf r ∧ SameFlagsBut s t [.n, .v, .z, .c]

/-- ADC and SBC with D = 1: they run on every operand; on two packed decimal numbers the result is the packed decimal
sum or difference modulo 100 and C its carry or no borrow; of N, V and Z, and of the result on other operands, nothing
is said (R183; the destination R180; log entry 17; the wrap of PC is the spec's decision D4, log entry 19). -/
def Obligations.DecimalArithmetic : Prop :=
  ∀ (s : State) (nn zz ll hh : Byte) (i : Instr) (o : Operand) (bs : List Byte) (c : Nat) (sub : Bool) (d m : Byte)
    (x : Int),
    ((i, o, bs, c) ∈ Rows.adc nn zz ll hh ∧ sub = false ∨ (i, o, bs, c) ∈ Rows.sbc nn zz ll hh ∧ sub = true) →
    m = o.value s → d = (if s.flag .t then s.read .mx (zpAddr s.x) else s.a) → s.flag .d = true →
    x = (if sub then ((10 * (d.toNat / 16) + d.toNat % 16 : Nat) : Int) - (10 * (m.toNat / 16) + m.toNat % 16 : Nat)
          - (1 - (s.flag .c).toNat)
        else ((10 * (d.toNat / 16) + d.toNat % 16 : Nat) : Int) + (10 * (m.toNat / 16) + m.toNat % 16 : Nat)
          + (s.flag .c).toNat) →
    ∃ t r, exec i s = .next t ∧ s.PutByT t r ∧ SameFlagsBut s t [.n, .v, .z, .c] ∧
      t.pc = s.pc + BitVec.ofNat 16 i.length ∧
      (d.toNat / 16 ≤ 9 → d.toNat % 16 ≤ 9 → m.toNat / 16 ≤ 9 → m.toNat % 16 ≤ 9 →
        r.toNat / 16 ≤ 9 ∧ r.toNat % 16 ≤ 9 ∧ ((10 * (r.toNat / 16) + r.toNat % 16 : Nat) : Int) = x % 100 ∧
        t.flag .c = if sub then decide (x ≥ 0) else decide (x > 99))

/-- The lines of the pages of INC and DEC (R184, R185). -/
def Rows.incDec (zz ll hh : Byte) : List (Instr × Option EaMode × List Byte × Nat × Nat) :=
  [(.incAcc, none, [0x3A], 2, 1), (.incZp zz, some (.zp zz), [0xE6, zz], 5, 1),
    (.incZpX zz, some (.zpX zz), [0xF6, zz], 6, 1), (.incAbs ll hh, some (.abs ll hh), [0xEE, ll, hh], 6, 1),
    (.incAbsX ll hh, some (.absX ll hh), [0xFE, ll, hh], 7, 1), (.decAcc, none, [0x1A], 2, 255),
    (.decZp zz, some (.zp zz), [0xC6, zz], 5, 255), (.decZpX zz, some (.zpX zz), [0xD6, zz], 6, 255),
    (.decAbs ll hh, some (.abs ll hh), [0xCE, ll, hh], 6, 255),
    (.decAbsX ll hh, some (.absX ll hh), [0xDE, ll, hh], 7, 255)]

/-- INC and DEC: the byte, in A or in memory, is one more or one less modulo 256, with its N and Z (R184, R185). -/
def Obligations.IncDecStep : Prop :=
  ∀ (s : State) (zz ll hh : Byte) (i : Instr) (p : Option EaMode) (bs : List Byte) (c k : Nat),
    (i, p, bs, c, k) ∈ Rows.incDec zz ll hh →
    encode i = bs ∧ cycles i s = c ∧
    ∃ t r, exec i s = .next t ∧ s.HoldsAt t p r ∧ r.toNat = ((s.valueAt p).toNat + k) % 256 ∧ t.NZOf r ∧
      SameFlagsBut s t [.n, .z]

/-- INX, DEX, INY and DEY: the index register is one more or one less modulo 256, with its N and Z (R186, R187, R190,
R191). -/
def Obligations.IndexSteps : Prop :=
  ∀ (s : State) (i : Instr) (get : State → Byte) (op : Byte) (k : Nat),
    (i = .inx ∧ get = State.x ∧ op = 0xE8 ∧ k = 1 ∨ i = .dex ∧ get = State.x ∧ op = 0xCA ∧ k = 255 ∨
      i = .iny ∧ get = State.y ∧ op = 0xC8 ∧ k = 1 ∨ i = .dey ∧ get = State.y ∧ op = 0x88 ∧ k = 255) →
    encode i = [op] ∧ cycles i s = 2 ∧
    ∃ t, exec i s = .next t ∧ (get t).toNat = ((get s).toNat + k) % 256 ∧ t.NZOf (get t) ∧ SameFlagsBut s t [.n, .z]

/-- MUL, on a product that has it: A takes the low byte of the unsigned product, the high byte is pushed, and no flag
changes (R188; that the operands are unsigned is the spec's decision D12, log entry 18; the wraps of `S` and PC are its
decisions D5 and D4, log entry 19). -/
def Obligations.MulMultiplies : Prop :=
  ∀ (s : State) (zz : Byte) (m : Byte), s.cfg.hasMulDiv = true → m = s.read .operand ((EaMode.zpX zz).ea s) →
    encode (.mulZpX zz) = [0x62, zz] ∧ cycles (.mulZpX zz) s = 15 ∧
    ∃ t h, exec (.mulZpX zz) s = .next t ∧ 256 * h.toNat + t.a.toNat = s.a.toNat * m.toNat ∧
      s.WrittenAt t (s.stackAddr s.sp) h ∧ t.sp.toNat = (s.sp.toNat + 255) % 256 ∧ t.ps = s.ps ∧ t.pc = s.pc + 2

/-- DIV, on a product that has it: it always completes, with one byte pushed and no flag changed; where the divisor is
not zero and the quotient fits, A takes the unsigned quotient and the complement of the remainder is pushed (R189; that
the operands are unsigned is the spec's decision D12, log entry 18; the other operands are its decision D13, log entry
16; the dividend's high byte after the end of the zero page is its decision D6, the wraps of `S` and PC are its
decisions D5 and D4, log entry 19). -/
def Obligations.DivDivides : Prop :=
  ∀ (s : State) (zz : Byte) (l h : Addr) (n : Nat), s.cfg.hasMulDiv = true →
    l.toNat = (zz.toNat + s.x.toNat) % 256 → h.toNat = (zz.toNat + s.x.toNat + 1) % 256 →
    n = 256 * (s.read .dividendHi h).toNat + (s.read .operand l).toNat →
    encode (.divZpX zz) = [0xE2, zz] ∧ cycles (.divZpX zz) s = 16 ∧
    ∃ t p, exec (.divZpX zz) s = .next t ∧ s.WrittenAt t (s.stackAddr s.sp) p ∧
      t.sp.toNat = (s.sp.toNat + 255) % 256 ∧ t.ps = s.ps ∧ t.pc = s.pc + 2 ∧
      (s.a.toNat ≠ 0 → n / s.a.toNat ≤ 255 →
        n = t.a.toNat * s.a.toNat + (255 - p.toNat) ∧ 255 - p.toNat < s.a.toNat)

/-! ## Logic, comparison, shift and rotate -/

/-- The lines of the pages of AND (R200, R201). -/
def Rows.and (nn zz ll hh : Byte) : List (Instr × Operand × List Byte × Nat) :=
  [(.andImm nn, .imm nn, [0x29, nn], 2), (.andZp zz, .mem (.zp zz), [0x25, zz], 3),
    (.andZpX zz, .mem (.zpX zz), [0x35, zz], 4), (.andAbs ll hh, .mem (.abs ll hh), [0x2D, ll, hh], 4),
    (.andAbsX ll hh, .mem (.absX ll hh), [0x3D, ll, hh], 5), (.andAbsY ll hh, .mem (.absY ll hh), [0x39, ll, hh], 5),
    (.andIndX zz, .mem (.indX zz), [0x21, zz], 6), (.andIndY zz, .mem (.indY zz), [0x31, zz], 6)]

/-- The lines of the pages of ORA (R200, R202). -/
def Rows.ora (nn zz ll hh : Byte) : List (Instr × Operand × List Byte × Nat) :=
  [(.oraImm nn, .imm nn, [0x09, nn], 2), (.oraZp zz, .mem (.zp zz), [0x05, zz], 3),
    (.oraZpX zz, .mem (.zpX zz), [0x15, zz], 4), (.oraAbs ll hh, .mem (.abs ll hh), [0x0D, ll, hh], 4),
    (.oraAbsX ll hh, .mem (.absX ll hh), [0x1D, ll, hh], 5), (.oraAbsY ll hh, .mem (.absY ll hh), [0x19, ll, hh], 5),
    (.oraIndX zz, .mem (.indX zz), [0x01, zz], 6), (.oraIndY zz, .mem (.indY zz), [0x11, zz], 6)]

/-- The lines of the pages of EOR (R200, R203). -/
def Rows.eor (nn zz ll hh : Byte) : List (Instr × Operand × List Byte × Nat) :=
  [(.eorImm nn, .imm nn, [0x49, nn], 2), (.eorZp zz, .mem (.zp zz), [0x45, zz], 3),
    (.eorZpX zz, .mem (.zpX zz), [0x55, zz], 4), (.eorAbs ll hh, .mem (.abs ll hh), [0x4D, ll, hh], 4),
    (.eorAbsX ll hh, .mem (.absX ll hh), [0x5D, ll, hh], 5), (.eorAbsY ll hh, .mem (.absY ll hh), [0x59, ll, hh], 5),
    (.eorIndX zz, .mem (.indX zz), [0x41, zz], 6), (.eorIndY zz, .mem (.indY zz), [0x51, zz], 6)]

/-- AND, ORA and EOR: the result bit by bit, at the destination that T selects, with its N and Z (R200 to R203). -/
def Obligations.LogicBitwise : Prop :=
  ∀ (s : State) (nn zz ll hh : Byte) (i : Instr) (o : Operand) (bs : List Byte) (c : Nat) (f : Bool → Bool → Bool)
    (d m : Byte),
    ((i, o, bs, c) ∈ Rows.and nn zz ll hh ∧ f = and ∨
      (i, o, bs, c) ∈ Rows.ora nn zz ll hh ∧ f = or ∨
      (i, o, bs, c) ∈ Rows.eor nn zz ll hh ∧ f = xor) →
    m = o.value s → d = (if s.flag .t then s.read .mx (zpAddr s.x) else s.a) →
    encode i = bs ∧ cycles i s = c + (if s.flag .t then 3 else 0) ∧
    ∃ t r, exec i s = .next t ∧ s.PutByT t r ∧ (∀ k < 8, r.getLsbD k = f (d.getLsbD k) (m.getLsbD k)) ∧ t.NZOf r ∧
      SameFlagsBut s t [.n, .z]

/-- COM complements the byte, with its N and Z; RRF exchanges its halves and changes no flag (R204, R215). -/
def Obligations.ComRrfModify : Prop :=
  ∀ (s : State) (zz v : Byte), v = s.read .operand ((EaMode.zp zz).ea s) →
    (encode (.comZp zz) = [0x44, zz] ∧ cycles (.comZp zz) s = 5 ∧
      ∃ t r, exec (.comZp zz) s = .next t ∧ s.WrittenAt t ((EaMode.zp zz).ea s) r ∧ r.toNat = 255 - v.toNat ∧
        t.NZOf r ∧ SameFlagsBut s t [.n, .z]) ∧
    (encode (.rrfZp zz) = [0x82, zz] ∧ cycles (.rrfZp zz) s = 8 ∧
      ∃ t r, exec (.rrfZp zz) s = .next t ∧ s.WrittenAt t ((EaMode.zp zz).ea s) r ∧
        r.toNat = v.toNat % 16 * 16 + v.toNat / 16 ∧ t.ps = s.ps)

/-- The lines of the pages of BIT and TST (R205, R206). -/
def Rows.bitTst (zz ll hh : Byte) : List (Instr × EaMode × List Byte × Nat) :=
  [(.bitZp zz, .zp zz, [0x24, zz], 3), (.bitAbs ll hh, .abs ll hh, [0x2C, ll, hh], 4),
    (.tstZp zz, .zp zz, [0x64, zz], 3)]

/-- BIT takes N and V from the byte and Z from its AND with A; TST takes N and Z from the byte; neither writes memory or
A (R205, R206). -/
def Obligations.BitTstFlags : Prop :=
  ∀ (s : State) (zz ll hh : Byte) (i : Instr) (m : EaMode) (bs : List Byte) (c : Nat) (v : Byte),
    (i, m, bs, c) ∈ Rows.bitTst zz ll hh →
    v = s.read .operand (m.ea s) →
    encode i = bs ∧ cycles i s = c ∧
    ∃ t, exec i s = .next t ∧ t.a = s.a ∧ t.mem = s.mem ∧ t.flag .n = v.getLsbD 7 ∧
      (i.mnemonic = .bit →
        t.flag .v = v.getLsbD 6 ∧ (t.flag .z = true ↔ ∀ k < 8, (s.a.getLsbD k && v.getLsbD k) = false)) ∧
      (i.mnemonic = .tst → t.flag .z = decide (v.toNat = 0) ∧ t.flag .v = s.flag .v) ∧
      SameFlagsBut s t [.n, .v, .z]

/-- The lines of the pages of CMP (R207). -/
def Rows.cmp (nn zz ll hh : Byte) : List (Instr × Operand × List Byte × Nat) :=
  [(.cmpImm nn, .imm nn, [0xC9, nn], 2), (.cmpZp zz, .mem (.zp zz), [0xC5, zz], 3),
    (.cmpZpX zz, .mem (.zpX zz), [0xD5, zz], 4), (.cmpAbs ll hh, .mem (.abs ll hh), [0xCD, ll, hh], 4),
    (.cmpAbsX ll hh, .mem (.absX ll hh), [0xDD, ll, hh], 5), (.cmpAbsY ll hh, .mem (.absY ll hh), [0xD9, ll, hh], 5),
    (.cmpIndX zz, .mem (.indX zz), [0xC1, zz], 6), (.cmpIndY zz, .mem (.indY zz), [0xD1, zz], 6)]

/-- The lines of the pages of CPX (R208). -/
def Rows.cpx (nn zz ll hh : Byte) : List (Instr × Operand × List Byte × Nat) :=
  [(.cpxImm nn, .imm nn, [0xE0, nn], 2), (.cpxZp zz, .mem (.zp zz), [0xE4, zz], 3),
    (.cpxAbs ll hh, .mem (.abs ll hh), [0xEC, ll, hh], 4)]

/-- The lines of the pages of CPY (R209). -/
def Rows.cpy (nn zz ll hh : Byte) : List (Instr × Operand × List Byte × Nat) :=
  [(.cpyImm nn, .imm nn, [0xC0, nn], 2), (.cpyZp zz, .mem (.zp zz), [0xC4, zz], 3),
    (.cpyAbs ll hh, .mem (.abs ll hh), [0xCC, ll, hh], 4)]

/-- CMP, CPX and CPY: N is bit 7 of the difference, Z says that the bytes are equal, C that the register's is not below
the operand; nothing is stored, and the carry that was there plays no part (R207, R208, R209). -/
def Obligations.Compares : Prop :=
  ∀ (s : State) (nn zz ll hh : Byte) (i : Instr) (o : Operand) (bs : List Byte) (c : Nat) (d m : Byte),
    ((i, o, bs, c) ∈ Rows.cmp nn zz ll hh ∧ d = (if s.flag .t then s.read .mx (zpAddr s.x) else s.a) ∨
      (i, o, bs, c) ∈ Rows.cpx nn zz ll hh ∧ d = s.x ∨
      (i, o, bs, c) ∈ Rows.cpy nn zz ll hh ∧ d = s.y) →
    m = o.value s →
    encode i = bs ∧ cycles i s = c + (if i.mnemonic = .cmp ∧ s.flag .t = true then 1 else 0) ∧
    ∃ t r, exec i s = .next t ∧ (r.toNat : Int) = ((d.toNat : Int) - m.toNat) % 256 ∧ t.NZOf r ∧
      t.flag .z = decide (d = m) ∧ t.flag .c = decide (m.toNat ≤ d.toNat) ∧ SameFlagsBut s t [.n, .z, .c] ∧
      t.a = s.a ∧ t.x = s.x ∧ t.y = s.y ∧ t.mem = s.mem

/-- The lines of the pages of ASL (R210, R211). -/
def Rows.asl (zz ll hh : Byte) : List (Instr × Option EaMode × List Byte × Nat) :=
  [(.aslAcc, none, [0x0A], 2), (.aslZp zz, some (.zp zz), [0x06, zz], 5),
    (.aslZpX zz, some (.zpX zz), [0x16, zz], 6), (.aslAbs ll hh, some (.abs ll hh), [0x0E, ll, hh], 6),
    (.aslAbsX ll hh, some (.absX ll hh), [0x1E, ll, hh], 7)]

/-- The lines of the pages of LSR (R210, R212). -/
def Rows.lsr (zz ll hh : Byte) : List (Instr × Option EaMode × List Byte × Nat) :=
  [(.lsrAcc, none, [0x4A], 2), (.lsrZp zz, some (.zp zz), [0x46, zz], 5),
    (.lsrZpX zz, some (.zpX zz), [0x56, zz], 6), (.lsrAbs ll hh, some (.abs ll hh), [0x4E, ll, hh], 6),
    (.lsrAbsX ll hh, some (.absX ll hh), [0x5E, ll, hh], 7)]

/-- The lines of the pages of ROL (R210, R213). -/
def Rows.rol (zz ll hh : Byte) : List (Instr × Option EaMode × List Byte × Nat) :=
  [(.rolAcc, none, [0x2A], 2), (.rolZp zz, some (.zp zz), [0x26, zz], 5),
    (.rolZpX zz, some (.zpX zz), [0x36, zz], 6), (.rolAbs ll hh, some (.abs ll hh), [0x2E, ll, hh], 6),
    (.rolAbsX ll hh, some (.absX ll hh), [0x3E, ll, hh], 7)]

/-- The lines of the pages of ROR (R210, R214). -/
def Rows.ror (zz ll hh : Byte) : List (Instr × Option EaMode × List Byte × Nat) :=
  [(.rorAcc, none, [0x6A], 2), (.rorZp zz, some (.zp zz), [0x66, zz], 5),
    (.rorZpX zz, some (.zpX zz), [0x76, zz], 6), (.rorAbs ll hh, some (.abs ll hh), [0x6E, ll, hh], 6),
    (.rorAbsX ll hh, some (.absX ll hh), [0x7E, ll, hh], 7)]

/-- ASL, LSR, ROL and ROR, on A or on memory: the result and the bit shifted out as numbers, Z of the result, and N its
bit 7, which is 0 for LSR (R210 to R214). -/
def Obligations.ShiftsAndRotates : Prop :=
  ∀ (s : State) (zz ll hh : Byte) (i : Instr) (p : Option EaMode) (bs : List Byte) (c v k : Nat),
    v = (s.valueAt p).toNat → k = (s.flag .c).toNat →
    ∀ q out : Nat,
    ((i, p, bs, c) ∈ Rows.asl zz ll hh ∧
        q = 2 * v % 256 ∧ out = v / 128 ∨
      (i, p, bs, c) ∈ Rows.lsr zz ll hh ∧
        q = v / 2 ∧ out = v % 2 ∨
      (i, p, bs, c) ∈ Rows.rol zz ll hh ∧
        q = (2 * v + k) % 256 ∧ out = v / 128 ∨
      (i, p, bs, c) ∈ Rows.ror zz ll hh ∧
        q = v / 2 + 128 * k ∧ out = v % 2) →
    encode i = bs ∧ cycles i s = c ∧
    ∃ t r, exec i s = .next t ∧ s.HoldsAt t p r ∧ r.toNat = q ∧ (t.flag .c).toNat = out ∧ t.NZOf r ∧
      SameFlagsBut s t [.n, .z, .c]

/-! ## Bit and flag -/

/-- The lines of the pages of CLB and SEB (R97, R231, R232). -/
def Rows.clbSeb (k : Nat) (zz : Byte) : List (Instr × Option EaMode × Bool × List Byte × Nat) :=
  [(.clbAcc k, none, false, [BitVec.ofNat 8 (0x20 * k + 0x1B)], 2),
    (.clbZp k zz, some (.zp zz), false, [BitVec.ofNat 8 (0x20 * k + 0x1F), zz], 5),
    (.sebAcc k, none, true, [BitVec.ofNat 8 (0x20 * k + 0x0B)], 2),
    (.sebZp k zz, some (.zp zz), true, [BitVec.ofNat 8 (0x20 * k + 0x0F), zz], 5)]

/-- CLB and SEB, on A or on a zero page byte: bit `k` is written, the other seven are as read, and no flag changes
(R231, R232; the wrap of PC is the spec's decision D4, log entry 19). -/
def Obligations.ClbSebWriteBit : Prop :=
  ∀ (s : State) (zz : Byte) (k : Nat) (i : Instr) (p : Option EaMode) (b : Bool) (bs : List Byte) (c : Nat), k < 8 →
    (i, p, b, bs, c) ∈ Rows.clbSeb k zz →
    encode i = bs ∧ cycles i s = c ∧
    ∃ t r, exec i s = .next t ∧ s.HoldsAt t p r ∧
      (∀ j < 8, r.getLsbD j = if j = k then b else (s.valueAt p).getLsbD j) ∧ t.ps = s.ps ∧
      t.pc = s.pc + BitVec.ofNat 16 bs.length

/-- The lines of the pages of the flag instructions (R233 to R241). -/
def Rows.flagInstr : List (Instr × Flag × Bool × Byte) :=
  [(.clc, .c, false, 0x18), (.sec, .c, true, 0x38), (.cld, .d, false, 0xD8), (.sed, .d, true, 0xF8),
    (.cli, .i, false, 0x58), (.sei, .i, true, 0x78), (.clt, .t, false, 0x12), (.set, .t, true, 0x32),
    (.clv, .v, false, 0xB8)]

/-- The nine flag instructions: one flag is written and the other seven are kept (R233 to R241). -/
def Obligations.FlagInstructions : Prop :=
  ∀ (s : State) (i : Instr) (f : Flag) (b : Bool) (op : Byte),
    (i, f, b, op) ∈ Rows.flagInstr →
    encode i = [op] ∧ cycles i s = 2 ∧
    ∃ t, exec i s = .next t ∧ t.flag f = b ∧ SameFlagsBut s t [f]

/-! ## Jump, branch and return -/

/-- JMP: the three targets, and the refusal of a pointer at the last byte of a page (R251; log entry 15; the high byte
of a zero page pointer after the end of the zero page is the spec's decision D6, log entry 19). -/
def Obligations.JmpJumps : Prop :=
  ∀ (s : State) (zz ll hh : Byte),
    (encode (.jmpAbs ll hh) = [0x4C, ll, hh] ∧ cycles (.jmpAbs ll hh) s = 3 ∧
      ∃ t, exec (.jmpAbs ll hh) s = .next t ∧ t.pc.toNat = 256 * hh.toNat + ll.toNat ∧ t.ps = s.ps ∧ t.mem = s.mem) ∧
    (encode (.jmpInd ll hh) = [0x6C, ll, hh] ∧ cycles (.jmpInd ll hh) s = 5 ∧
      (ll = 0xFF → exec (.jmpInd ll hh) s = .refused .jmpIndirectPageEnd) ∧
      ∀ p q : Addr, ll ≠ 0xFF → p.toNat = 256 * hh.toNat + ll.toNat → q.toNat = p.toNat + 1 →
        ∃ t, exec (.jmpInd ll hh) s = .next t ∧
          t.pc.toNat = 256 * (s.read .pointerHi q).toNat + (s.read .pointerLo p).toNat ∧ t.ps = s.ps ∧
          t.mem = s.mem) ∧
    (encode (.jmpZpInd zz) = [0xB2, zz] ∧ cycles (.jmpZpInd zz) s = 4 ∧
      ∀ p q : Addr, p.toNat = zz.toNat → q.toNat = (zz.toNat + 1) % 256 →
        ∃ t, exec (.jmpZpInd zz) s = .next t ∧
          t.pc.toNat = 256 * (s.read .pointerHi q).toNat + (s.read .pointerLo p).toNat ∧ t.ps = s.ps ∧ t.mem = s.mem)

/-- The lines of the pages of BRA and the conditional branches (R252, R256 to R263). -/
def Rows.branch (s : State) (rr : Byte) : List (Instr × Bool × Byte × Nat) :=
  [(.bra rr, true, 0x80, 4), (.bcc rr, s.flag .c == false, 0x90, 2 + 2 * (s.flag .c == false).toNat),
    (.bcs rr, s.flag .c == true, 0xB0, 2 + 2 * (s.flag .c == true).toNat),
    (.bne rr, s.flag .z == false, 0xD0, 2 + 2 * (s.flag .z == false).toNat),
    (.beq rr, s.flag .z == true, 0xF0, 2 + 2 * (s.flag .z == true).toNat),
    (.bpl rr, s.flag .n == false, 0x10, 2 + 2 * (s.flag .n == false).toNat),
    (.bmi rr, s.flag .n == true, 0x30, 2 + 2 * (s.flag .n == true).toNat),
    (.bvc rr, s.flag .v == false, 0x50, 2 + 2 * (s.flag .v == false).toNat),
    (.bvs rr, s.flag .v == true, 0x70, 2 + 2 * (s.flag .v == true).toNat)]

/-- BRA and the eight conditional branches: the target is the address after the instruction and a signed displacement,
modulo 65536, taken on the flag's value; a taken conditional branch takes two more cycles (R252, R256 to R264; the wrap
of PC is the spec's decision D4, log entry 19). -/
def Obligations.Branches : Prop :=
  ∀ (s : State) (rr : Byte) (i : Instr) (taken : Bool) (op : Byte) (c : Nat),
    (i, taken, op, c) ∈ Rows.branch s rr →
    encode i = [op, rr] ∧ cycles i s = c ∧
    ∃ t, exec i s = .next t ∧ t.ps = s.ps ∧
      (t.pc.toNat : Int) = ((s.pc.toNat : Int) + 2 + if taken then rr.toInt else 0) % 65536

/-- The lines of the pages of BBC and BBS (R97, R254, R255). -/
def Rows.bitBranch (s : State) (k : Nat) (zz rr v : Byte) : List (Instr × Bool × List Byte × Nat) :=
  [(.bbcAcc k rr, s.a.getLsbD k == false, [BitVec.ofNat 8 (0x20 * k + 0x13), rr], 4),
    (.bbcZp k zz rr, v.getLsbD k == false, [BitVec.ofNat 8 (0x20 * k + 0x17), zz, rr], 5),
    (.bbsAcc k rr, s.a.getLsbD k == true, [BitVec.ofNat 8 (0x20 * k + 0x03), rr], 4),
    (.bbsZp k zz rr, v.getLsbD k == true, [BitVec.ofNat 8 (0x20 * k + 0x07), zz, rr], 5)]

/-- BBC and BBS: taken when bit `k` of A, or of the zero page byte, is 0 or 1; the zero page byte is the one stored now
unless the instruction before wrote a byte there that holds a request bit (R254, R255; log entry 12; the wrap of PC is
the spec's decision D4, log entry 19). -/
def Obligations.BitBranches : Prop :=
  ∀ (s : State) (zz rr : Byte) (k : Nat) (i : Instr) (taken : Bool) (bs : List Byte) (c : Nat) (v : Byte), k < 8 →
    v = s.read .operand ((EaMode.zp zz).ea s) → (∀ x ∈ s.prev.requestBytes, x.1 ≠ zz.toNat) →
    (i, taken, bs, c) ∈ Rows.bitBranch s k zz rr v →
    encode i = bs ∧ cycles i s = c + 2 * taken.toNat ∧
    ∃ t, exec i s = .next t ∧ t.ps = s.ps ∧ t.a = s.a ∧ t.mem = s.mem ∧
      (t.pc.toNat : Int) = ((s.pc.toNat : Int) + bs.length + if taken then rr.toInt else 0) % 65536

/-- The instruction after one that wrote a byte holding a request bit, be it with the value it had: a BBC or BBS on that
zero page byte branches on the bit as it was before the write or as it is read now (R353; log entry 12). -/
def Obligations.StaleRequestBranches : Prop :=
  ∀ (s t v : State) (i : Instr) (k : IntSource) (zz rr : Byte) (b : Nat) (want : Bool), s.Quiet → s.run = .running →
    s.fetch = .ok i → (i = .brk → s.firstPending = none) → step s = .next t → v.prev = t.prev → k ∈ s.cfg.sources →
    k.request.addr.toNat = zz.toNat → k.request.addr ∈ storedAddrs i s.popInput →
    writable s.cfg k.request.addr = true → b < 8 →
    ∃ u, exec (if want then .bbsZp b zz rr else .bbcZp b zz rr) v = .next u ∧
      (u = v.branch 3 rr ((s.peek k.request.addr).getLsbD b == want) ∨
        u = v.branch 3 rr ((v.read .operand k.request.addr).getLsbD b == want))

/-- The lines of the pages of JSR (R253). -/
def Rows.jsr (zz ll hh : Byte) : List (Instr × List Byte × Nat) :=
  [(.jsrAbs ll hh, [0x20, ll, hh], 6), (.jsrSpecial ll, [0x22, ll], 5), (.jsrZpInd zz, [0x02, zz], 7)]

/-- JSR: the address of its own last byte is pushed, high byte first, and PC takes the target, the last operand byte or
the pointer being read after the pushes; no flag changes (R253; that order is the spec's, log entry 20; the wraps of PC,
of `S` and of the pointer are the spec's decisions D4, D5 and D6, log entry 19). -/
def Obligations.JsrCalls : Prop :=
  ∀ (s : State) (zz ll hh : Byte) (i : Instr) (bs : List Byte) (c : Nat),
    (i, bs, c) ∈ Rows.jsr zz ll hh →
    encode i = bs ∧ cycles i s = c ∧
    ∃ t, exec i s = .next t ∧ t.ps = s.ps ∧ t.sp.toNat = (s.sp.toNat + 254) % 256 ∧
      (s.StackSafe 2 → ∀ ret : Nat, ret = (s.pc.toNat + bs.length - 1) % 65536 →
        (t.peek (s.stackAddr s.sp)).toNat = ret / 256 ∧ (t.peek (s.stackAddr (s.sp - 1))).toNat = ret % 256) ∧
      (i = .jsrAbs ll hh →
        (t.peek (s.pc + 2) = s.peek (s.pc + 2) → t.pc.toNat = 256 * hh.toNat + ll.toNat) ∧
        (t.peek (s.pc + 2) ≠ s.peek (s.pc + 2) → t.pc.toNat = 256 * (t.peek (s.pc + 2)).toNat + ll.toNat)) ∧
      (i = .jsrSpecial ll → t.pc.toNat = 0xFF00 + ll.toNat) ∧
      (i = .jsrZpInd zz → ∀ p q : Addr, p.toNat = zz.toNat → q.toNat = (zz.toNat + 1) % 256 →
        t.pc.toNat = 256 * (t.read .pointerHi q).toNat + (t.read .pointerLo p).toNat)

/-- RTS pulls PC, low byte first, and goes one beyond it; RTI pulls `PS`, then PC, and goes there (R265, R266; the wraps
of PC and `S` are the spec's decisions D4 and D5, log entry 19). -/
def Obligations.RtsRtiReturn : Prop :=
  ∀ (s : State) (x y z : Byte), x.toNat = (s.sp.toNat + 1) % 256 → y.toNat = (s.sp.toNat + 2) % 256 →
    z.toNat = (s.sp.toNat + 3) % 256 →
    (encode .rts = [0x60] ∧ cycles .rts s = 6 ∧
      ∃ t, exec .rts s = .next t ∧ t.sp = y ∧ t.ps = s.ps ∧
        t.pc.toNat =
          (256 * (s.read .pull2 (s.stackAddr y)).toNat + (s.read .pull1 (s.stackAddr x)).toNat + 1) % 65536) ∧
    (encode .rti = [0x40] ∧ cycles .rti s = 6 ∧
      ∃ t, exec .rti s = .next t ∧ t.sp = z ∧ t.ps = s.read .pull1 (s.stackAddr x) ∧
        t.pc.toNat = 256 * (s.read .pull3 (s.stackAddr z)).toNat + (s.read .pull2 (s.stackAddr y)).toNat)

/-- A subroutine that does nothing comes back: RTS right after JSR goes to the instruction after the JSR, with every
register as before the call; RTI right after BRK goes two beyond the BRK, with the interrupted `PS` but for B (R265,
R281; the wraps of PC and `S` are the spec's decisions D4 and D5, log entry 19). -/
def Obligations.ReturnsResume : Prop :=
  ∀ (s : State) (zz ll hh : Byte),
    (∀ i ∈ ([.jsrAbs ll hh, .jsrSpecial ll, .jsrZpInd zz] : List Instr), s.StackSafe 2 →
      ∃ t u, exec i s = .next t ∧ exec .rts t = .next u ∧ u.pc = s.pc + BitVec.ofNat 16 i.length ∧ u.sp = s.sp ∧
        u.ps = s.ps ∧ u.a = s.a ∧ u.x = s.x ∧ u.y = s.y) ∧
    (s.StackSafe 3 → s.firstPending = none →
      ∃ t u, exec .brk s = .next t ∧ exec .rti t = .next u ∧ u.pc = s.pc + 2 ∧ u.sp = s.sp ∧ u.flag .b = true ∧
        SameFlagsBut s u [.b] ∧ u.a = s.a ∧ u.x = s.x ∧ u.y = s.y)

/-! ## Interrupt, special and other -/

/-- BRK with no source pending: the context is saved with B = 1 and the address two beyond, I becomes 1, and PC is
loaded from the break vector, low byte first, after the pushes (R281; the wraps of PC, of the vector's second address
and of `S` are the spec's decisions D4 and D5, log entry 19). -/
def Obligations.BrkBreaks : Prop :=
  ∀ s : State, s.firstPending = none →
    encode .brk = [0x00] ∧ cycles .brk s = 7 ∧
    ∃ t, exec .brk s = .next t ∧ s.SavedContext t (s.pc + 2) true ∧
      t.pc.toNat =
        256 * (t.read .brkVectorHi (s.cfg.brkVector + 1)).toNat + (t.read .brkVectorLo s.cfg.brkVector).toNat

/-- BRK with a source pending and enabled: the product's choice of the three behaviours that R319 admits. In the third,
`s.takeBreak` is the state between BRK's own entry and the source's, and both contexts are on the stack at the end (log
entry 10; the wraps of PC, of a vector's second address and of `S` are the spec's decisions D4 and D5, log entry 19). -/
def Obligations.BrkWithPending : Prop :=
  ∀ (s : State) (k : IntSource), s.firstPending = some k →
    (s.cfg.brkWithPending = .stayPending →
      ∃ t, exec .brk s = .next t ∧ s.SavedContext t (s.pc + 2) true ∧
        t.pc.toNat =
          256 * (t.read .brkVectorHi (s.cfg.brkVector + 1)).toNat + (t.read .brkVectorLo s.cfg.brkVector).toNat ∧
        (s.StackSafe 3 → t.bitAt k.request = true)) ∧
    (s.cfg.brkWithPending = .sourceVector →
      ∃ t, exec .brk s = .next t ∧ s.SavedContext t (s.pc + 2) true ∧
        (k.request.addr ≠ k.vector → k.request.addr ≠ k.vector + 1 →
          t.pc.toNat = 256 * (t.read .irqVectorHi (k.vector + 1)).toNat + (t.read .irqVectorLo k.vector).toNat) ∧
        (writable s.cfg k.request.addr = true → t.bitAt k.request = false)) ∧
    (s.cfg.brkWithPending = .entryAfter → s.cfg.stackPage ≠ .selectionBit k.request → ∀ u, u = s.takeBreak →
      ∃ t, exec .brk s = .next t ∧ s.SavedContext u (s.pc + 2) true ∧
        u.pc.toNat =
          256 * (u.read .brkVectorHi (s.cfg.brkVector + 1)).toNat + (u.read .brkVectorLo s.cfg.brkVector).toNat ∧
        u.SavedContext t u.pc false ∧ t.run = .running ∧
        t.pc.toNat = 256 * (t.read .irqVectorHi (k.vector + 1)).toNat + (t.read .irqVectorLo k.vector).toNat ∧
        (s.StackSafe 3 → u.StackSafe 3 → ∀ j < 3, ∀ a : Addr, a = s.stackAddr (s.sp - BitVec.ofNat 8 j) →
          t.peek a = u.peek a) ∧
        (writable s.cfg k.request.addr = true → u.StackSafe 3 → t.bitAt k.request = false))

/-- WIT and STP leave the running state, a disabled STP and NOP only advance PC, and nothing else changes (R282, R283,
R284; the wrap of PC is the spec's decision D4, log entry 19). -/
def Obligations.WitStpNop : Prop :=
  ∀ s : State,
    (encode .wit = [0xC2] ∧ cycles .wit s = 2 ∧ exec .wit s = .next { s with pc := s.pc + 1, run := .wait }) ∧
    (encode .nop = [0xEA] ∧ cycles .nop s = 2 ∧ exec .nop s = .next { s with pc := s.pc + 1 }) ∧
    (encode .stp = [0x42] ∧ cycles .stp s = 2 ∧
      (s.cfg.stpMode = .enabled → exec .stp s = .next { s with pc := s.pc + 1, run := .stop }) ∧
      (s.cfg.stpMode = .disabled → exec .stp s = .next { s with pc := s.pc + 1 }) ∧
      (s.cfg.stpMode = .absent → exec .stp s = .refused (.undefinedOpcode 0x42)))

/-- MUL, DIV and STP on a product without them are treated as undefined op-codes: the step that fetches one has no
successor, whatever follows the op-code and whatever instruction came before (R110, R111; log entry 14; that the refusal is
this one right after a PLP too is the model's choice, log entry 30). -/
def Obligations.AbsentInstructionsRefused : Prop :=
  ∀ (s : State) (op : Byte), s.Quiet → s.run = .running → s.fetchable s.pc = true → s.peek s.pc = op →
    (op = 0x62 ∨ op = 0xE2 → s.cfg.hasMulDiv = false → step s = .refused (.undefinedOpcode op)) ∧
    (op = 0x42 → s.cfg.stpMode = .absent → step s = .refused (.undefinedOpcode op))

/-! ## Hazards -/

/-- After PLP, an instruction that is not NOP has no successor, and NOP runs (R352; log entry 12; the wrap of PC is the
spec's decision D4, log entry 19). -/
def Obligations.PlpNeedsNop : Prop :=
  ∀ (s t : State) (i : Instr), s.Quiet → s.run = .running → s.fetch = .ok .plp → step s = .next t → t.Quiet →
    t.fetch = .ok i →
    (i ≠ .nop → step t = .refused (.hazardViolation .plpNotFollowedByNop)) ∧
    (i = .nop → ∃ u, step t = .next u ∧ u.pc = t.pc + 1)

/-- After an ADC or SBC with D = 1, SEC, CLC or CLD has no successor; after one with D = 0 each of them runs (R351; log
entry 12; the wrap of PC is the spec's decision D4, log entry 19). -/
def Obligations.DecimalFlagHazard : Prop :=
  ∀ (s t : State) (i j : Instr), s.Quiet → s.run = .running → s.fetch = .ok i →
    (i.mnemonic = .adc ∨ i.mnemonic = .sbc) → step s = .next t → t.Quiet → t.fetch = .ok j →
    (j = .sec ∨ j = .clc ∨ j = .cld) →
    (s.flag .d = true → step t = .refused (.hazardViolation .decimalFlagWrite)) ∧
    (s.flag .d = false → ∃ u, step t = .next u ∧ u.pc = t.pc + 1)

/-! ## Interrupts, standby and reset -/

/-- The requests that devices make at a boundary, however many, set their request bits, whatever I and the enable bits
are, and change nothing else; in the stop state only those of sources that need no clock (R302, R326; log entries 7 and
26). -/
def Obligations.RequestsArrive : Prop :=
  ∀ s : State,
    (∀ (a : Addr) (j : Nat), j < 8 →
      ((s.landed.peek a).getLsbD j = true ↔
        (s.peek a).getLsbD j = true ∨
        ∃ n ∈ s.input.requests, ∃ k, s.cfg.sources[n]? = some k ∧ k.request.addr = a ∧ (k.request.bit : Nat) = j ∧
          writable s.cfg a = true ∧ (s.run = .stop → k.external = true))) ∧
    s.landed.a = s.a ∧ s.landed.x = s.x ∧ s.landed.y = s.y ∧ s.landed.sp = s.sp ∧ s.landed.ps = s.ps ∧
    s.landed.pc = s.pc ∧ s.landed.run = s.run ∧ s.landed.prev = s.prev

/-- The requests that devices raise inside an instruction: a read finds those that have arrived before it; a write stores
its byte over those that have arrived in it, and the others stay to come; those that are left at the instruction's end
set their bits in memory (R76, R66, R302; log entry 7). -/
def Obligations.RequestsInsideInstruction : Prop :=
  ∀ (s : State) (a : Addr),
    (∀ (d : Draw) (j : Nat), j < 8 →
      classOf s.cfg a = .ram ∨ classOf s.cfg a = .sfr ∧ (∃ l ∈ controlBits s.cfg, l.addr = a ∧ (l.bit : Nat) = j) →
      ((s.read d a).getLsbD j = true ↔
        (s.peek a).getLsbD j = true ∨
        ∃ r ∈ s.bus.arrivals, ∃ k, s.cfg.sources[r.source]? = some k ∧ k.request.addr = a ∧ (k.request.bit : Nat) = j ∧
          (r.writes < s.bus.writes.length ∨ r.writes = s.bus.writes.length ∧ r.turn ≤ drawTurn d))) ∧
    (∀ (v : Byte) (r : Arrival), writable s.cfg a = true →
      (s.write a v).peek a = v ∧ (s.write a v).bus.writes.length = s.bus.writes.length + 1 ∧
      (r ∈ (s.write a v).bus.arrivals ↔
        r ∈ s.bus.arrivals ∧
          (s.bus.writes.length < r.writes ∨ ∀ k, s.cfg.sources[r.source]? = some k → k.request.addr ≠ a))) ∧
    ∀ j < 8,
      ((s.settle.peek a).getLsbD j = true ↔
        (s.peek a).getLsbD j = true ∨
        ∃ r ∈ s.bus.arrivals, ∃ k, s.cfg.sources[r.source]? = some k ∧ k.request.addr = a ∧ (k.request.bit : Nat) = j ∧
          writable s.cfg a = true)

/-- The source accepted at a boundary that does not delay it is the first, in order of priority, that requests: I is 0,
and its request and enable bits are set or it is a raced one that the devices let through. While I is 1, and no reset
comes, a running CPU runs its next instruction and a standby one stands by (R303, R304, R305, R321, R323; the order of the
sources is the spec's decision D18, log entry 25). -/
def Obligations.AcceptanceTest : Prop :=
  (∀ (s : State) (inp : Input) (k : IntSource),
    s.accepted inp = some k ↔
      inp.delayed = false ∧
      ∃ n : Nat, s.cfg.sources[n]? = some k ∧ s.Requests inp k ∧
        ∀ m < n, ∀ j : IntSource, s.cfg.sources[m]? = some j → ¬ s.Requests inp j) ∧
  ∀ s : State, s.input.reset = none → s.flag .i = true →
    step s = if s.run = .running then s.landed.runInstr else .next (s.standby s.landed)

/-- One write that cleared a request bit and set the enable bit in the same byte while I was 0: at the next boundary the
source, if none of higher priority is acceptable, is accepted when the devices let it through, and is not otherwise
(R323; log entry 13). -/
def Obligations.RacedWriteAdmitsBoth : Prop :=
  ∀ (s t v : State) (i : Instr) (k : IntSource) (n : Nat), s.Quiet → s.run = .running → s.fetch = .ok i →
    step s = .next t → s.cfg.sources[n]? = some k → k.request.addr = k.enable.addr →
    s.flag .i = false → t.flag .i = false →
    s.bitAt k.request = true → s.bitAt k.enable = false → t.bitAt k.request = false → t.bitAt k.enable = true →
    (∀ m < n, ∀ j : IntSource, s.cfg.sources[m]? = some j → t.isAcceptable j = false) →
    v = { t with inputs := { racedTaken := [k] } :: t.inputs } →
    t.accepted { racedTaken := [k] } = some k ∧ t.accepted {} ≠ some k ∧ step v = .next (v.popInput.accept k)

/-- The entry for an accepted source, from any run state: the request bit is cleared, the context of the boundary is
saved with B = 0, I becomes 1, PC is loaded from the source's vector, and the CPU runs with no history; a request of the
source that arrives inside the entry is pending after it (R306, R310; log entries 7 and 25; the wraps of `S` and of the
vector's second address are the spec's decisions D5 and D4, log entry 19). -/
def Obligations.InterruptEntry : Prop :=
  ∀ (s : State) (k : IntSource), s.input.reset = none → s.landed.accepted s.input = some k →
    s.cfg.stackPage ≠ .selectionBit k.request →
    ∃ t, step s = .next t ∧ s.landed.SavedContext t s.landed.pc false ∧ t.run = .running ∧ t.prev = Prev.other ∧
      t.a = s.a ∧ t.x = s.x ∧ t.y = s.y ∧
      (writable s.cfg k.request.addr = true → s.landed.StackSafe 3 →
        (t.bitAt k.request = true ↔
          ∃ r ∈ s.input.during, ∃ j, s.cfg.sources[r.source]? = some j ∧ j.request = k.request)) ∧
      (s.Plain k.vector → s.Plain (k.vector + 1) →
        t.pc.toNat = 256 * (t.peek (k.vector + 1)).toNat + (t.peek k.vector).toNat)

/-- An interrupt routine that does nothing comes back: RTI right after the entry goes to the interrupted address with
the interrupted registers and flags, but for B, which the entry cleared (R306, R313; log entry 7; the wrap of `S` is the
spec's decision D5, log entry 19). -/
def Obligations.EntryThenRtiResumes : Prop :=
  ∀ (s : State) (k : IntSource), s.input.reset = none → s.landed.accepted s.input = some k →
    (∀ j ∈ s.cfg.sources, s.cfg.stackPage ≠ .selectionBit j.request) → s.landed.StackSafe 3 →
    ∃ t u, step s = .next t ∧ exec .rti t = .next u ∧ u.pc = s.pc ∧ u.sp = s.sp ∧ u.a = s.a ∧ u.x = s.x ∧ u.y = s.y ∧
      u.flag .b = false ∧ SameFlagsBut s u [.b] ∧ u.run = .running

/-- A boundary in a standby state with nothing accepted: no register changes, memory only by the devices' requests, and
the CPU stays, or runs on without an entry if the product does so for a request that cannot be accepted (R325, R327;
log entry 11). -/
def Obligations.StandbyStaysOrWakes : Prop :=
  ∀ s : State, s.input.reset = none → s.run ≠ .running → s.landed.accepted s.input = none →
    ∃ t, step s = .next t ∧ t.a = s.a ∧ t.x = s.x ∧ t.y = s.y ∧ t.sp = s.sp ∧ t.ps = s.ps ∧ t.pc = s.pc ∧
      t.mem = s.landed.mem ∧ (s.cfg.wakeWithISet = .stay → t.run = s.run) ∧
      (s.cfg.wakeWithISet = .resume →
        ((∃ k ∈ s.cfg.sources, s.bitAt k.request = false ∧ s.landed.bitAt k.request = true ∧
            s.landed.isAcceptable k = false) → t.run = .running) ∧
        ((∀ k ∈ s.cfg.sources, s.landed.bitAt k.request = true → s.bitAt k.request = true) → t.run = s.run))

/-- A reset, in any run state and whatever else is due: I is 1, the CPU runs with no history, PC is loaded from the
reset vector, ROM keeps its contents, and every other register and every byte of RAM and of the device registers is as
the reset leaves it (R340, R341, R343, R346; that PC is loaded from a vector is the spec's decision D3, log entry 3; the
wrap of the vector's second address is its decision D4, log entry 19; what the reset leaves is an input, in which a byte
that is not listed is 0x00, log entry 23). -/
def Obligations.ResetOverridesAll : Prop :=
  ∀ (s : State) (d : ResetDraw), s.input.reset = some d →
    ∃ t, step s = .next t ∧ t.flag .i = true ∧ t.run = .running ∧ t.prev = Prev.other ∧
      t.a = d.a ∧ t.x = d.x ∧ t.y = d.y ∧ t.sp = d.sp ∧
      (∀ f : Flag, f ≠ .i → t.flag f = d.ps.getLsbD f.bit) ∧
      (∀ a, classOf s.cfg a = .rom → t.peek a = s.peek a) ∧
      (∀ a, classOf s.cfg a = .ram ∨ classOf s.cfg a = .sfr →
        t.peek a = (d.ram.reverse.lookup a.toNat).getD 0x00) ∧
      (s.fetchable s.cfg.resetVector = true → s.fetchable (s.cfg.resetVector + 1) = true →
        t.pc.toNat = 256 * (t.peek (s.cfg.resetVector + 1)).toNat + (t.peek s.cfg.resetVector).toNat)

/-- The state after reset has the invariant that `StepKeepsInvariant` keeps; in it I is 1, the CPU runs, and there is no
hazard history, which is all that R48 gives (the other values are the model's: log entries 3, 4, 5). -/
def Obligations.ResetState : Prop :=
  State.reset.Inv ∧ State.reset.flag .i = true ∧ State.reset.run = .running ∧ State.reset.prev = Prev.other

end
end

