-- ==== Sys2Proof/Laws/Bits.lean ====
section
/-! SUPPORT. The small lemmas of the bit and byte helpers: what a written bit reads as, and the numbers that joined and
split bytes stand for. -/

namespace Sys2Proof.Machine

open Sys2Proof

/-- A bit of a byte with one bit set. -/
theorem getLsbD_bitMask (i j : Nat) (hi : i < 8) (hj : j < 8) : (bitMask i).getLsbD j = decide (i = j) := by
  interval_cases i <;> interval_cases j <;> rfl

/-- A bit of a byte with one bit written. -/
@[simp] theorem getLsbD_withBit (v : Byte) (i j : Nat) (b : Bool) (hi : i < 8) (hj : j < 8) :
    (withBit v i b).getLsbD j = if i = j then b else v.getLsbD j := by
  have hm := getLsbD_bitMask i j hi hj
  unfold withBit
  cases b
  · rw [if_neg (by simp), BitVec.getLsbD_and, BitVec.getLsbD_not, hm]
    by_cases h : i = j <;> simp [h, hj]
  · rw [if_pos rfl, BitVec.getLsbD_or, hm]
    by_cases h : i = j <;> simp [h]

/-- A bit of the bytes of a list put together. -/
theorem getLsbD_foldl_or {α : Type} (f : α → Byte) (l : List α) (m : Byte) (j : Nat) :
    (l.foldl (fun m x => m ||| f x) m).getLsbD j = (m.getLsbD j || l.any fun x => (f x).getLsbD j) := by
  induction l generalizing m with
  | nil => simp
  | cons x l ih => rw [List.foldl_cons, ih, BitVec.getLsbD_or, List.any_cons, Bool.or_assoc]

/-- The number a joined pair of bytes stands for. -/
theorem toNat_join (hi lo : Byte) : (join hi lo).toNat = 256 * hi.toNat + lo.toNat := by
  have h : (join hi lo).toNat = hi.toNat <<< 8 ||| lo.toNat := BitVec.toNat_append hi lo
  rw [h, ← Nat.shiftLeft_add_eq_or_of_lt lo.isLt, Nat.shiftLeft_eq]
  omega

theorem toNat_hiByte (w : Addr) : (hiByte w).toNat = w.toNat / 256 := by
  have h : (hiByte w).toNat = w.toNat >>> 8 % 2 ^ 8 := BitVec.extractLsb'_toNat ..
  have := w.isLt
  rw [h, Nat.shiftRight_eq_div_pow]
  omega

theorem toNat_loByte (w : Addr) : (loByte w).toNat = w.toNat % 256 := by
  have h : (loByte w).toNat = w.toNat >>> 0 % 2 ^ 8 := BitVec.extractLsb'_toNat ..
  rw [h, Nat.shiftRight_zero]
  norm_num

@[simp] theorem hiByte_join (hi lo : Byte) : hiByte (join hi lo) = hi := by
  apply BitVec.eq_of_toNat_eq
  have := lo.isLt
  rw [toNat_hiByte, toNat_join]
  omega

@[simp] theorem loByte_join (hi lo : Byte) : loByte (join hi lo) = lo := by
  apply BitVec.eq_of_toNat_eq
  have := lo.isLt
  rw [toNat_loByte, toNat_join]
  omega

@[simp] theorem join_hiByte_loByte (w : Addr) : join (hiByte w) (loByte w) = w := by
  apply BitVec.eq_of_toNat_eq
  rw [toNat_join, toNat_hiByte, toNat_loByte]
  omega

theorem join_inj (a b c d : Byte) : join a b = join c d ↔ a = c ∧ b = d :=
  ⟨fun h => ⟨by simpa using congrArg hiByte h, by simpa using congrArg loByte h⟩, fun ⟨h, k⟩ => by rw [h, k]⟩

theorem toNat_zpAddr (z : Byte) : (zpAddr z).toNat = z.toNat := by
  rw [zpAddr, toNat_join]
  simp

theorem toNat_zext16 (b : Byte) : (zext16 b).toNat = b.toNat := by
  have := b.isLt
  simp [zext16]
  omega

end Sys2Proof.Machine
end

