-- ==== Sys2Proof/Laws/State.lean ====
section
/-! SUPPORT. What each update of the state leaves in each field, one lemma for each field it keeps, and what a flag reads
as after each write of `PS`. No later proof unfolds an update of the record. -/

namespace Sys2Proof.Machine

open Sys2Proof Sys2Proof.Config

/-- A read depends on the memory, the product, the bus and the number of the step. -/
theorem State.read_congr {s t : State} (hm : s.mem = t.mem) (hc : s.cfg = t.cfg) (hb : s.bus = t.bus)
    (hd : s.draws = t.draws) (d : Draw) (a : Addr) : s.read d a = t.read d a := by
  simp [State.read, State.seen, State.peek, hm, hc, hb, hd]

/-! ### `State.setFlag` -/

@[simp] theorem State.setFlag_a (s : State) (g : Flag) (b : Bool) : (s.setFlag g b).a = s.a := rfl
@[simp] theorem State.setFlag_x (s : State) (g : Flag) (b : Bool) : (s.setFlag g b).x = s.x := rfl
@[simp] theorem State.setFlag_y (s : State) (g : Flag) (b : Bool) : (s.setFlag g b).y = s.y := rfl
@[simp] theorem State.setFlag_sp (s : State) (g : Flag) (b : Bool) : (s.setFlag g b).sp = s.sp := rfl
@[simp] theorem State.setFlag_pc (s : State) (g : Flag) (b : Bool) : (s.setFlag g b).pc = s.pc := rfl
@[simp] theorem State.setFlag_mem (s : State) (g : Flag) (b : Bool) : (s.setFlag g b).mem = s.mem := rfl
@[simp] theorem State.setFlag_run (s : State) (g : Flag) (b : Bool) : (s.setFlag g b).run = s.run := rfl
@[simp] theorem State.setFlag_prev (s : State) (g : Flag) (b : Bool) : (s.setFlag g b).prev = s.prev := rfl
@[simp] theorem State.setFlag_cfg (s : State) (g : Flag) (b : Bool) : (s.setFlag g b).cfg = s.cfg := rfl
@[simp] theorem State.setFlag_bus (s : State) (g : Flag) (b : Bool) : (s.setFlag g b).bus = s.bus := rfl
@[simp] theorem State.setFlag_inputs (s : State) (g : Flag) (b : Bool) : (s.setFlag g b).inputs = s.inputs := rfl
@[simp] theorem State.setFlag_draws (s : State) (g : Flag) (b : Bool) : (s.setFlag g b).draws = s.draws := rfl
@[simp] theorem State.setFlag_peek (s : State) (g : Flag) (b : Bool) (q : Addr) :
    (s.setFlag g b).peek q = s.peek q := rfl
@[simp] theorem State.setFlag_read (s : State) (g : Flag) (b : Bool) (dr : Draw) (q : Addr) :
    (s.setFlag g b).read dr q = s.read dr q := State.read_congr rfl rfl rfl rfl dr q

/-! ### `State.setNZ` -/

@[simp] theorem State.setNZ_a (s : State) (v : Byte) : (s.setNZ v).a = s.a := rfl
@[simp] theorem State.setNZ_x (s : State) (v : Byte) : (s.setNZ v).x = s.x := rfl
@[simp] theorem State.setNZ_y (s : State) (v : Byte) : (s.setNZ v).y = s.y := rfl
@[simp] theorem State.setNZ_sp (s : State) (v : Byte) : (s.setNZ v).sp = s.sp := rfl
@[simp] theorem State.setNZ_pc (s : State) (v : Byte) : (s.setNZ v).pc = s.pc := rfl
@[simp] theorem State.setNZ_mem (s : State) (v : Byte) : (s.setNZ v).mem = s.mem := rfl
@[simp] theorem State.setNZ_run (s : State) (v : Byte) : (s.setNZ v).run = s.run := rfl
@[simp] theorem State.setNZ_prev (s : State) (v : Byte) : (s.setNZ v).prev = s.prev := rfl
@[simp] theorem State.setNZ_cfg (s : State) (v : Byte) : (s.setNZ v).cfg = s.cfg := rfl
@[simp] theorem State.setNZ_bus (s : State) (v : Byte) : (s.setNZ v).bus = s.bus := rfl
@[simp] theorem State.setNZ_inputs (s : State) (v : Byte) : (s.setNZ v).inputs = s.inputs := rfl
@[simp] theorem State.setNZ_draws (s : State) (v : Byte) : (s.setNZ v).draws = s.draws := rfl
@[simp] theorem State.setNZ_peek (s : State) (v : Byte) (q : Addr) : (s.setNZ v).peek q = s.peek q := rfl
@[simp] theorem State.setNZ_read (s : State) (v : Byte) (dr : Draw) (q : Addr) :
    (s.setNZ v).read dr q = s.read dr q := State.read_congr rfl rfl rfl rfl dr q

/-! ### `State.setArith` -/

@[simp] theorem State.setArith_a (s : State) (r : ArithOut) : (s.setArith r).a = s.a := rfl
@[simp] theorem State.setArith_x (s : State) (r : ArithOut) : (s.setArith r).x = s.x := rfl
@[simp] theorem State.setArith_y (s : State) (r : ArithOut) : (s.setArith r).y = s.y := rfl
@[simp] theorem State.setArith_sp (s : State) (r : ArithOut) : (s.setArith r).sp = s.sp := rfl
@[simp] theorem State.setArith_pc (s : State) (r : ArithOut) : (s.setArith r).pc = s.pc := rfl
@[simp] theorem State.setArith_mem (s : State) (r : ArithOut) : (s.setArith r).mem = s.mem := rfl
@[simp] theorem State.setArith_run (s : State) (r : ArithOut) : (s.setArith r).run = s.run := rfl
@[simp] theorem State.setArith_prev (s : State) (r : ArithOut) : (s.setArith r).prev = s.prev := rfl
@[simp] theorem State.setArith_cfg (s : State) (r : ArithOut) : (s.setArith r).cfg = s.cfg := rfl
@[simp] theorem State.setArith_bus (s : State) (r : ArithOut) : (s.setArith r).bus = s.bus := rfl
@[simp] theorem State.setArith_inputs (s : State) (r : ArithOut) : (s.setArith r).inputs = s.inputs := rfl
@[simp] theorem State.setArith_draws (s : State) (r : ArithOut) : (s.setArith r).draws = s.draws := rfl
@[simp] theorem State.setArith_peek (s : State) (r : ArithOut) (q : Addr) : (s.setArith r).peek q = s.peek q := rfl
@[simp] theorem State.setArith_read (s : State) (r : ArithOut) (dr : Draw) (q : Addr) :
    (s.setArith r).read dr q = s.read dr q := State.read_congr rfl rfl rfl rfl dr q

/-! ### `State.setCompare` -/

@[simp] theorem State.setCompare_a (s : State) (d m : Byte) : (s.setCompare d m).a = s.a := rfl
@[simp] theorem State.setCompare_x (s : State) (d m : Byte) : (s.setCompare d m).x = s.x := rfl
@[simp] theorem State.setCompare_y (s : State) (d m : Byte) : (s.setCompare d m).y = s.y := rfl
@[simp] theorem State.setCompare_sp (s : State) (d m : Byte) : (s.setCompare d m).sp = s.sp := rfl
@[simp] theorem State.setCompare_pc (s : State) (d m : Byte) : (s.setCompare d m).pc = s.pc := rfl
@[simp] theorem State.setCompare_mem (s : State) (d m : Byte) : (s.setCompare d m).mem = s.mem := rfl
@[simp] theorem State.setCompare_run (s : State) (d m : Byte) : (s.setCompare d m).run = s.run := rfl
@[simp] theorem State.setCompare_prev (s : State) (d m : Byte) : (s.setCompare d m).prev = s.prev := rfl
@[simp] theorem State.setCompare_cfg (s : State) (d m : Byte) : (s.setCompare d m).cfg = s.cfg := rfl
@[simp] theorem State.setCompare_bus (s : State) (d m : Byte) : (s.setCompare d m).bus = s.bus := rfl
@[simp] theorem State.setCompare_inputs (s : State) (d m : Byte) : (s.setCompare d m).inputs = s.inputs := rfl
@[simp] theorem State.setCompare_draws (s : State) (d m : Byte) : (s.setCompare d m).draws = s.draws := rfl
@[simp] theorem State.setCompare_peek (s : State) (d m : Byte) (q : Addr) :
    (s.setCompare d m).peek q = s.peek q := rfl
@[simp] theorem State.setCompare_read (s : State) (d m : Byte) (dr : Draw) (q : Addr) :
    (s.setCompare d m).read dr q = s.read dr q := State.read_congr rfl rfl rfl rfl dr q

/-! ### `State.setShift` -/

@[simp] theorem State.setShift_a (s : State) (r : ShiftOut) : (s.setShift r).a = s.a := rfl
@[simp] theorem State.setShift_x (s : State) (r : ShiftOut) : (s.setShift r).x = s.x := rfl
@[simp] theorem State.setShift_y (s : State) (r : ShiftOut) : (s.setShift r).y = s.y := rfl
@[simp] theorem State.setShift_sp (s : State) (r : ShiftOut) : (s.setShift r).sp = s.sp := rfl
@[simp] theorem State.setShift_pc (s : State) (r : ShiftOut) : (s.setShift r).pc = s.pc := rfl
@[simp] theorem State.setShift_mem (s : State) (r : ShiftOut) : (s.setShift r).mem = s.mem := rfl
@[simp] theorem State.setShift_run (s : State) (r : ShiftOut) : (s.setShift r).run = s.run := rfl
@[simp] theorem State.setShift_prev (s : State) (r : ShiftOut) : (s.setShift r).prev = s.prev := rfl
@[simp] theorem State.setShift_cfg (s : State) (r : ShiftOut) : (s.setShift r).cfg = s.cfg := rfl
@[simp] theorem State.setShift_bus (s : State) (r : ShiftOut) : (s.setShift r).bus = s.bus := rfl
@[simp] theorem State.setShift_inputs (s : State) (r : ShiftOut) : (s.setShift r).inputs = s.inputs := rfl
@[simp] theorem State.setShift_draws (s : State) (r : ShiftOut) : (s.setShift r).draws = s.draws := rfl
@[simp] theorem State.setShift_peek (s : State) (r : ShiftOut) (q : Addr) : (s.setShift r).peek q = s.peek q := rfl
@[simp] theorem State.setShift_read (s : State) (r : ShiftOut) (dr : Draw) (q : Addr) :
    (s.setShift r).read dr q = s.read dr q := State.read_congr rfl rfl rfl rfl dr q

/-! ### `State.advance` -/

@[simp] theorem State.advance_a (s : State) (n : Nat) : (s.advance n).a = s.a := rfl
@[simp] theorem State.advance_x (s : State) (n : Nat) : (s.advance n).x = s.x := rfl
@[simp] theorem State.advance_y (s : State) (n : Nat) : (s.advance n).y = s.y := rfl
@[simp] theorem State.advance_sp (s : State) (n : Nat) : (s.advance n).sp = s.sp := rfl
@[simp] theorem State.advance_ps (s : State) (n : Nat) : (s.advance n).ps = s.ps := rfl
@[simp] theorem State.advance_mem (s : State) (n : Nat) : (s.advance n).mem = s.mem := rfl
@[simp] theorem State.advance_run (s : State) (n : Nat) : (s.advance n).run = s.run := rfl
@[simp] theorem State.advance_prev (s : State) (n : Nat) : (s.advance n).prev = s.prev := rfl
@[simp] theorem State.advance_cfg (s : State) (n : Nat) : (s.advance n).cfg = s.cfg := rfl
@[simp] theorem State.advance_bus (s : State) (n : Nat) : (s.advance n).bus = s.bus := rfl
@[simp] theorem State.advance_inputs (s : State) (n : Nat) : (s.advance n).inputs = s.inputs := rfl
@[simp] theorem State.advance_draws (s : State) (n : Nat) : (s.advance n).draws = s.draws := rfl
@[simp] theorem State.advance_flag (s : State) (n : Nat) (fl : Flag) : (s.advance n).flag fl = s.flag fl := rfl
@[simp] theorem State.advance_peek (s : State) (n : Nat) (q : Addr) : (s.advance n).peek q = s.peek q := rfl
@[simp] theorem State.advance_read (s : State) (n : Nat) (dr : Draw) (q : Addr) :
    (s.advance n).read dr q = s.read dr q := State.read_congr rfl rfl rfl rfl dr q

@[simp] theorem State.advance_pc (s : State) (n : Nat) : (s.advance n).pc = s.pc + BitVec.ofNat 16 n := rfl

/-! ### `State.jump` -/

@[simp] theorem State.jump_a (s : State) (t : Addr) : (s.jump t).a = s.a := rfl
@[simp] theorem State.jump_x (s : State) (t : Addr) : (s.jump t).x = s.x := rfl
@[simp] theorem State.jump_y (s : State) (t : Addr) : (s.jump t).y = s.y := rfl
@[simp] theorem State.jump_sp (s : State) (t : Addr) : (s.jump t).sp = s.sp := rfl
@[simp] theorem State.jump_ps (s : State) (t : Addr) : (s.jump t).ps = s.ps := rfl
@[simp] theorem State.jump_mem (s : State) (t : Addr) : (s.jump t).mem = s.mem := rfl
@[simp] theorem State.jump_run (s : State) (t : Addr) : (s.jump t).run = s.run := rfl
@[simp] theorem State.jump_prev (s : State) (t : Addr) : (s.jump t).prev = s.prev := rfl
@[simp] theorem State.jump_cfg (s : State) (t : Addr) : (s.jump t).cfg = s.cfg := rfl
@[simp] theorem State.jump_bus (s : State) (t : Addr) : (s.jump t).bus = s.bus := rfl
@[simp] theorem State.jump_inputs (s : State) (t : Addr) : (s.jump t).inputs = s.inputs := rfl
@[simp] theorem State.jump_draws (s : State) (t : Addr) : (s.jump t).draws = s.draws := rfl
@[simp] theorem State.jump_flag (s : State) (t : Addr) (fl : Flag) : (s.jump t).flag fl = s.flag fl := rfl
@[simp] theorem State.jump_peek (s : State) (t : Addr) (q : Addr) : (s.jump t).peek q = s.peek q := rfl
@[simp] theorem State.jump_read (s : State) (t : Addr) (dr : Draw) (q : Addr) :
    (s.jump t).read dr q = s.read dr q := State.read_congr rfl rfl rfl rfl dr q

@[simp] theorem State.jump_pc (s : State) (t : Addr) : (s.jump t).pc = t := rfl

/-! ### `State.branch` -/

@[simp] theorem State.branch_a (s : State) (n : Nat) (rr : Byte) (k : Bool) :
    (s.branch n rr k).a = s.a := by cases k <;> rfl
@[simp] theorem State.branch_x (s : State) (n : Nat) (rr : Byte) (k : Bool) :
    (s.branch n rr k).x = s.x := by cases k <;> rfl
@[simp] theorem State.branch_y (s : State) (n : Nat) (rr : Byte) (k : Bool) :
    (s.branch n rr k).y = s.y := by cases k <;> rfl
@[simp] theorem State.branch_sp (s : State) (n : Nat) (rr : Byte) (k : Bool) :
    (s.branch n rr k).sp = s.sp := by cases k <;> rfl
@[simp] theorem State.branch_ps (s : State) (n : Nat) (rr : Byte) (k : Bool) :
    (s.branch n rr k).ps = s.ps := by cases k <;> rfl
@[simp] theorem State.branch_mem (s : State) (n : Nat) (rr : Byte) (k : Bool) :
    (s.branch n rr k).mem = s.mem := by cases k <;> rfl
@[simp] theorem State.branch_run (s : State) (n : Nat) (rr : Byte) (k : Bool) :
    (s.branch n rr k).run = s.run := by cases k <;> rfl
@[simp] theorem State.branch_prev (s : State) (n : Nat) (rr : Byte) (k : Bool) :
    (s.branch n rr k).prev = s.prev := by cases k <;> rfl
@[simp] theorem State.branch_cfg (s : State) (n : Nat) (rr : Byte) (k : Bool) :
    (s.branch n rr k).cfg = s.cfg := by cases k <;> rfl
@[simp] theorem State.branch_bus (s : State) (n : Nat) (rr : Byte) (k : Bool) :
    (s.branch n rr k).bus = s.bus := by cases k <;> rfl
@[simp] theorem State.branch_inputs (s : State) (n : Nat) (rr : Byte) (k : Bool) :
    (s.branch n rr k).inputs = s.inputs := by cases k <;> rfl
@[simp] theorem State.branch_draws (s : State) (n : Nat) (rr : Byte) (k : Bool) :
    (s.branch n rr k).draws = s.draws := by cases k <;> rfl
@[simp] theorem State.branch_flag (s : State) (n : Nat) (rr : Byte) (k : Bool) (fl : Flag) :
    (s.branch n rr k).flag fl = s.flag fl := by simp [State.flag]
@[simp] theorem State.branch_peek (s : State) (n : Nat) (rr : Byte) (k : Bool) (q : Addr) :
    (s.branch n rr k).peek q = s.peek q := by simp [State.peek]
@[simp] theorem State.branch_read (s : State) (n : Nat) (rr : Byte) (k : Bool) (dr : Draw) (q : Addr) :
    (s.branch n rr k).read dr q = s.read dr q := State.read_congr (by simp) (by simp) (by simp) (by simp) dr q

theorem State.branch_pc (s : State) (n : Nat) (rr : Byte) (k : Bool) :
    (s.branch n rr k).pc = s.pc + BitVec.ofNat 16 n + (if k then sext16 rr else 0) := by
  cases k <;> simp [State.branch]

/-! ### `State.tick` -/

@[simp] theorem State.tick_a (s : State) : (s.tick).a = s.a := rfl
@[simp] theorem State.tick_x (s : State) : (s.tick).x = s.x := rfl
@[simp] theorem State.tick_y (s : State) : (s.tick).y = s.y := rfl
@[simp] theorem State.tick_sp (s : State) : (s.tick).sp = s.sp := rfl
@[simp] theorem State.tick_ps (s : State) : (s.tick).ps = s.ps := rfl
@[simp] theorem State.tick_pc (s : State) : (s.tick).pc = s.pc := rfl
@[simp] theorem State.tick_mem (s : State) : (s.tick).mem = s.mem := rfl
@[simp] theorem State.tick_run (s : State) : (s.tick).run = s.run := rfl
@[simp] theorem State.tick_prev (s : State) : (s.tick).prev = s.prev := rfl
@[simp] theorem State.tick_cfg (s : State) : (s.tick).cfg = s.cfg := rfl
@[simp] theorem State.tick_bus (s : State) : (s.tick).bus = s.bus := rfl
@[simp] theorem State.tick_inputs (s : State) : (s.tick).inputs = s.inputs := rfl
@[simp] theorem State.tick_flag (s : State) (fl : Flag) : (s.tick).flag fl = s.flag fl := rfl
@[simp] theorem State.tick_peek (s : State) (q : Addr) : (s.tick).peek q = s.peek q := rfl

@[simp] theorem State.tick_draws (s : State) : s.tick.draws = s.draws + 1 := rfl

/-! ### `State.popInput` -/

@[simp] theorem State.popInput_a (s : State) : (s.popInput).a = s.a := rfl
@[simp] theorem State.popInput_x (s : State) : (s.popInput).x = s.x := rfl
@[simp] theorem State.popInput_y (s : State) : (s.popInput).y = s.y := rfl
@[simp] theorem State.popInput_sp (s : State) : (s.popInput).sp = s.sp := rfl
@[simp] theorem State.popInput_ps (s : State) : (s.popInput).ps = s.ps := rfl
@[simp] theorem State.popInput_pc (s : State) : (s.popInput).pc = s.pc := rfl
@[simp] theorem State.popInput_mem (s : State) : (s.popInput).mem = s.mem := rfl
@[simp] theorem State.popInput_run (s : State) : (s.popInput).run = s.run := rfl
@[simp] theorem State.popInput_prev (s : State) : (s.popInput).prev = s.prev := rfl
@[simp] theorem State.popInput_cfg (s : State) : (s.popInput).cfg = s.cfg := rfl
@[simp] theorem State.popInput_bus (s : State) : (s.popInput).bus = { arrivals := s.input.during } := rfl
@[simp] theorem State.popInput_draws (s : State) : (s.popInput).draws = s.draws := rfl
@[simp] theorem State.popInput_flag (s : State) (fl : Flag) : (s.popInput).flag fl = s.flag fl := rfl
@[simp] theorem State.popInput_peek (s : State) (q : Addr) : (s.popInput).peek q = s.peek q := rfl

/-! ### Flags -/

/-- A flag after one flag is written. -/
@[simp] theorem State.flag_setFlag (s : State) (g f : Flag) (b : Bool) :
    (s.setFlag g b).flag f = if g = f then b else s.flag f := by
  show (withBit s.ps g.bit b).getLsbD f.bit = _
  rw [getLsbD_withBit _ _ _ _ (by cases g <;> decide) (by cases f <;> decide)]
  cases g <;> cases f <;> rfl

/-- The flags after `SetNZ`. -/
@[simp] theorem State.flag_setNZ (s : State) (v : Byte) (f : Flag) :
    (s.setNZ v).flag f = match f with
      | .n => v.msb
      | .z => v == 0
      | .v | .t | .b | .d | .i | .c => s.flag f := by
  cases f <;> simp [State.setNZ]

/-- The flags after an addition or subtraction. -/
@[simp] theorem State.flag_setArith (s : State) (r : ArithOut) (f : Flag) :
    (s.setArith r).flag f = match f with
      | .n => r.n
      | .v => r.v
      | .z => r.z
      | .c => r.c
      | .t | .b | .d | .i => s.flag f := by
  cases f <;> simp [State.setArith]

/-- The flags after a comparison. -/
@[simp] theorem State.flag_setCompare (s : State) (d m : Byte) (f : Flag) :
    (s.setCompare d m).flag f = match f with
      | .n => (d - m).msb
      | .z => d - m == 0
      | .c => decide (d.toNat ≥ m.toNat)
      | .v | .t | .b | .d | .i => s.flag f := by
  cases f <;> simp [State.setCompare]

/-- The flags after a shift or rotate. -/
@[simp] theorem State.flag_setShift (s : State) (r : ShiftOut) (f : Flag) :
    (s.setShift r).flag f = match f with
      | .n => r.n
      | .z => r.result == 0
      | .c => r.c
      | .v | .t | .b | .d | .i => s.flag f := by
  cases f <;> simp [State.setShift]

/-- A flag depends on `PS` alone. -/
theorem State.flag_congr {s t : State} (h : s.ps = t.ps) (f : Flag) : s.flag f = t.flag f := by
  simp [State.flag, h]

/-- `PS` is its eight flags. -/
theorem State.ps_ext {s t : State} (h : ∀ f, s.flag f = t.flag f) : s.ps = t.ps := by
  apply BitVec.eq_of_getLsbD_eq
  intro k hk
  interval_cases k
  · exact h .c
  · exact h .z
  · exact h .i
  · exact h .d
  · exact h .b
  · exact h .t
  · exact h .v
  · exact h .n

end Sys2Proof.Machine
end

