-- ==== Sys2Proof/Laws/Ops.lean ====
section
/-! SUPPORT. What each shared operation over memory and registers can do, said once: the fields it keeps, the byte at
every address after it, and that it keeps the memory's canonical form. -/

namespace Sys2Proof.Machine

open Sys2Proof Sys2Proof.Config

/-! ### Writing one byte -/

/-- A store changes the memory and nothing else. -/
theorem State.put_eq (s : State) (a : Addr) (v : Byte) :
    s.put a v = { s with mem := if writable s.cfg a then s.mem.set a.toNat v else s.mem } := by
  unfold State.put
  split <;> rfl

/-- The byte stored at an address after a store. -/
theorem State.peek_put (s : State) (a b : Addr) (v : Byte) :
    (s.put a v).peek b = if b = a ∧ writable s.cfg a then v else s.peek b := by
  rw [State.put_eq]
  unfold State.peek
  by_cases h : writable s.cfg a <;> simp [h, Memory.get_set, BitVec.toNat_inj]

/-- A store keeps the memory's canonical form. -/
theorem State.wf_put (s : State) (a : Addr) (v : Byte) (h : s.mem.wf) : (s.put a v).mem.wf := by
  rw [State.put_eq]
  show Memory.wf (if writable s.cfg a then s.mem.set a.toNat v else s.mem)
  split
  · exact Memory.wf_set h a.toNat v a.isLt
  · exact h

/-- A write changes the memory and the bus, and nothing else. -/
theorem State.write_eq (s : State) (a : Addr) (v : Byte) :
    s.write a v =
      { s with
        mem := if writable s.cfg a then s.mem.set a.toNat v else s.mem
        bus := if writable s.cfg a then s.busAfter a v else s.bus } := by
  unfold State.write
  rw [State.put_eq]

/-- The memory after a write is the one after a store. -/
theorem State.write_mem (s : State) (a : Addr) (v : Byte) : (s.write a v).mem = (s.put a v).mem := rfl

/-- The byte stored at an address after a write. -/
theorem State.peek_write (s : State) (a b : Addr) (v : Byte) :
    (s.write a v).peek b = if b = a ∧ writable s.cfg a then v else s.peek b :=
  State.peek_put s a b v

/-- A write leaves the byte stored at every other address. -/
theorem State.peek_write_of_ne (s : State) {a b : Addr} (v : Byte) (h : b ≠ a) :
    (s.write a v).peek b = s.peek b := by
  rw [State.peek_write, if_neg fun k => h k.1]

/-- A write keeps the memory's canonical form. -/
theorem State.wf_write (s : State) (a : Addr) (v : Byte) (h : s.mem.wf) : (s.write a v).mem.wf :=
  State.wf_put s a v h

/-- The bus after a write (R76). -/
theorem State.write_bus (s : State) (a : Addr) (v : Byte) :
    (s.write a v).bus = if writable s.cfg a then s.busAfter a v else s.bus := rfl

/-! ### `State.write` -/

@[simp] theorem State.write_a (s : State) (w : Addr) (v : Byte) : (s.write w v).a = s.a := by simp [State.write_eq]
@[simp] theorem State.write_x (s : State) (w : Addr) (v : Byte) : (s.write w v).x = s.x := by simp [State.write_eq]
@[simp] theorem State.write_y (s : State) (w : Addr) (v : Byte) : (s.write w v).y = s.y := by simp [State.write_eq]
@[simp] theorem State.write_sp (s : State) (w : Addr) (v : Byte) : (s.write w v).sp = s.sp := by simp [State.write_eq]
@[simp] theorem State.write_ps (s : State) (w : Addr) (v : Byte) : (s.write w v).ps = s.ps := by simp [State.write_eq]
@[simp] theorem State.write_pc (s : State) (w : Addr) (v : Byte) : (s.write w v).pc = s.pc := by simp [State.write_eq]
@[simp] theorem State.write_run (s : State) (w : Addr) (v : Byte) :
    (s.write w v).run = s.run := by simp [State.write_eq]
@[simp] theorem State.write_prev (s : State) (w : Addr) (v : Byte) :
    (s.write w v).prev = s.prev := by simp [State.write_eq]
@[simp] theorem State.write_cfg (s : State) (w : Addr) (v : Byte) :
    (s.write w v).cfg = s.cfg := by simp [State.write_eq]
@[simp] theorem State.write_inputs (s : State) (w : Addr) (v : Byte) :
    (s.write w v).inputs = s.inputs := by simp [State.write_eq]
@[simp] theorem State.write_draws (s : State) (w : Addr) (v : Byte) :
    (s.write w v).draws = s.draws := by simp [State.write_eq]
@[simp] theorem State.write_flag (s : State) (w : Addr) (v : Byte) (fl : Flag) :
    (s.write w v).flag fl = s.flag fl := by simp [State.flag]

/-! ### Reading one byte -/

/-- A request that is in no byte of a list's arrivals sets no bit. -/
theorem arrivalMask_eq_zero (p : Product) (a : Addr) (rs : List Arrival) (h : ∀ r ∈ rs, arrivesAt p a r = false) :
    arrivalMask p a rs = 0 := by
  unfold arrivalMask
  rw [List.filter_eq_nil_iff.2 fun r hr => by simp [h r hr]]
  rfl

/-- A bit of the arrivals in the byte at an address: some arrival is of a source whose request bit it is. -/
theorem getLsbD_arrivalMask (p : Product) (a : Addr) (rs : List Arrival) (j : Nat) (hj : j < 8) :
    (arrivalMask p a rs).getLsbD j = true ↔
      ∃ r ∈ rs, ∃ k, p.sources[r.source]? = some k ∧ k.request.addr = a ∧ (k.request.bit : Nat) = j := by
  unfold arrivalMask
  rw [getLsbD_foldl_or, show (0 : Byte).getLsbD j = false from BitVec.getLsbD_zero, Bool.false_or, List.any_eq_true]
  constructor
  · rintro ⟨r, hr, h⟩
    obtain ⟨hr, ha⟩ := List.mem_filter.1 hr
    unfold arrivesAt at ha
    unfold requestMask at h
    split at ha
    · next k hk =>
      rw [hk] at h
      exact ⟨r, hr, k, hk, eq_of_beq ha, of_decide_eq_true (getLsbD_bitMask _ j k.request.bit.isLt hj ▸ h)⟩
    · cases ha
  · rintro ⟨r, hr, k, hk, ha, hb⟩
    refine ⟨r, List.mem_filter.2 ⟨hr, ?_⟩, ?_⟩
    · simp [arrivesAt, hk, ha]
    · simp only [requestMask, hk]
      rw [getLsbD_bitMask _ j k.request.bit.isLt hj, hb, decide_eq_true rfl]

/-- A bit of the byte at an address is a control bit. -/
theorem getLsbD_controlMask (p : Product) (a : Addr) (j : Nat) (hj : j < 8) :
    (controlMask p a).getLsbD j = true ↔ ∃ l ∈ controlBits p, l.addr = a ∧ (l.bit : Nat) = j := by
  unfold controlMask
  rw [getLsbD_foldl_or, show (0 : Byte).getLsbD j = false from BitVec.getLsbD_zero, Bool.false_or, List.any_eq_true]
  constructor
  · rintro ⟨l, hl, h⟩
    obtain ⟨hl, ha⟩ := List.mem_filter.1 hl
    exact ⟨l, hl, eq_of_beq ha, of_decide_eq_true (getLsbD_bitMask _ j l.bit.isLt hj ▸ h)⟩
  · rintro ⟨l, hl, ha, hb⟩
    refine ⟨l, List.mem_filter.2 ⟨hl, by simpa using ha⟩, ?_⟩
    rw [getLsbD_bitMask _ j l.bit.isLt hj, hb, decide_eq_true rfl]

/-- An address that holds no request bit is seen as it is stored, whatever arrives. -/
theorem State.seen_of_no_request (s : State) (d : Draw) (a : Addr) (h : ∀ k ∈ s.cfg.sources, k.request.addr ≠ a) :
    s.seen d a = s.peek a := by
  unfold State.seen
  rw [arrivalMask_eq_zero]
  · simp
  · intro r _
    unfold arrivesAt
    split
    · next k hk => exact beq_false_of_ne (h k (List.mem_of_getElem? hk))
    · rfl

/-- Where nothing arrives inside the instruction, every byte is seen as it is stored. -/
theorem State.seen_of_no_arrival (s : State) (d : Draw) (a : Addr) (h : s.bus.arrivals = []) :
    s.seen d a = s.peek a := by
  simp [State.seen, h, arrivalMask]

/-- RAM and ROM read as they are seen and stored. -/
theorem State.read_memory (s : State) (d : Draw) (a : Addr) (h : s.fetchable a = true) (hs : s.seen d a = s.peek a) :
    s.read d a = s.peek a := by
  unfold State.fetchable at h
  unfold State.read
  cases hc : classOf s.cfg a <;> simp_all

/-! ### The stack -/

/-- The stack page depends on the memory and the product. -/
theorem State.stackPage_congr {s t : State} (hm : s.mem = t.mem) (hc : s.cfg = t.cfg) : s.stackPage = t.stackPage := by
  simp [State.stackPage, State.bitAt, State.peek, hm, hc]

/-- A push writes one byte and decrements `S` (R64). -/
theorem State.push_eq (s : State) (v : Byte) :
    s.push v = { s.write (s.stackAddr s.sp) v with sp := s.sp - 1 } := by
  simp [State.push]

/-! ### `State.push` -/

@[simp] theorem State.push_a (s : State) (v : Byte) : (s.push v).a = s.a := by simp [State.push_eq]
@[simp] theorem State.push_x (s : State) (v : Byte) : (s.push v).x = s.x := by simp [State.push_eq]
@[simp] theorem State.push_y (s : State) (v : Byte) : (s.push v).y = s.y := by simp [State.push_eq]
@[simp] theorem State.push_ps (s : State) (v : Byte) : (s.push v).ps = s.ps := by simp [State.push_eq]
@[simp] theorem State.push_pc (s : State) (v : Byte) : (s.push v).pc = s.pc := by simp [State.push_eq]
@[simp] theorem State.push_run (s : State) (v : Byte) : (s.push v).run = s.run := by simp [State.push_eq]
@[simp] theorem State.push_prev (s : State) (v : Byte) : (s.push v).prev = s.prev := by simp [State.push_eq]
@[simp] theorem State.push_cfg (s : State) (v : Byte) : (s.push v).cfg = s.cfg := by simp [State.push_eq]
@[simp] theorem State.push_inputs (s : State) (v : Byte) : (s.push v).inputs = s.inputs := by simp [State.push_eq]
@[simp] theorem State.push_draws (s : State) (v : Byte) : (s.push v).draws = s.draws := by simp [State.push_eq]
@[simp] theorem State.push_flag (s : State) (v : Byte) (fl : Flag) :
    (s.push v).flag fl = s.flag fl := by simp [State.flag]

/-- The bus after a push is the one after its write. -/
theorem State.push_bus (s : State) (v : Byte) : (s.push v).bus = (s.write (s.stackAddr s.sp) v).bus := by
  rw [State.push_eq]

@[simp] theorem State.push_sp (s : State) (v : Byte) : (s.push v).sp = s.sp - 1 := by simp [State.push_eq]

/-- The byte stored at an address after a push. -/
theorem State.peek_push (s : State) (v : Byte) (b : Addr) :
    (s.push v).peek b = if b = s.stackAddr s.sp ∧ writable s.cfg (s.stackAddr s.sp) then v else s.peek b := by
  rw [State.push_eq]
  exact State.peek_write s (s.stackAddr s.sp) b v

/-- A push keeps the memory's canonical form. -/
theorem State.wf_push (s : State) (v : Byte) (h : s.mem.wf) : (s.push v).mem.wf := by
  rw [State.push_eq]
  exact State.wf_write s _ v h

/-- A pull increments `S`, reads, and changes nothing else (R64). -/
theorem State.pull_eq (s : State) (d : Draw) :
    s.pull d = (s.read d (s.stackAddr (s.sp + 1)), { s with sp := s.sp + 1 }) := rfl

/-! ### `State.pull` -/

@[simp] theorem State.pull_a (s : State) (d : Draw) : ((s.pull d).2).a = s.a := rfl
@[simp] theorem State.pull_x (s : State) (d : Draw) : ((s.pull d).2).x = s.x := rfl
@[simp] theorem State.pull_y (s : State) (d : Draw) : ((s.pull d).2).y = s.y := rfl
@[simp] theorem State.pull_ps (s : State) (d : Draw) : ((s.pull d).2).ps = s.ps := rfl
@[simp] theorem State.pull_pc (s : State) (d : Draw) : ((s.pull d).2).pc = s.pc := rfl
@[simp] theorem State.pull_mem (s : State) (d : Draw) : ((s.pull d).2).mem = s.mem := rfl
@[simp] theorem State.pull_run (s : State) (d : Draw) : ((s.pull d).2).run = s.run := rfl
@[simp] theorem State.pull_prev (s : State) (d : Draw) : ((s.pull d).2).prev = s.prev := rfl
@[simp] theorem State.pull_cfg (s : State) (d : Draw) : ((s.pull d).2).cfg = s.cfg := rfl
@[simp] theorem State.pull_bus (s : State) (d : Draw) : ((s.pull d).2).bus = s.bus := rfl
@[simp] theorem State.pull_inputs (s : State) (d : Draw) : ((s.pull d).2).inputs = s.inputs := rfl
@[simp] theorem State.pull_draws (s : State) (d : Draw) : ((s.pull d).2).draws = s.draws := rfl
@[simp] theorem State.pull_flag (s : State) (d : Draw) (fl : Flag) : ((s.pull d).2).flag fl = s.flag fl := rfl
@[simp] theorem State.pull_peek (s : State) (d : Draw) (q : Addr) : ((s.pull d).2).peek q = s.peek q := rfl
@[simp] theorem State.pull_read (s : State) (d : Draw) (dr : Draw) (q : Addr) :
    ((s.pull d).2).read dr q = s.read dr q := State.read_congr rfl rfl rfl rfl dr q

@[simp] theorem State.pull_sp (s : State) (d : Draw) : (s.pull d).2.sp = s.sp + 1 := rfl

/-! ### The destination of the T mode -/

/-! ### `State.putResult` -/

@[simp] theorem State.putResult_x (s : State) (r : Byte) :
    (s.putResult r).x = s.x := by unfold State.putResult; split <;> simp
@[simp] theorem State.putResult_y (s : State) (r : Byte) :
    (s.putResult r).y = s.y := by unfold State.putResult; split <;> simp
@[simp] theorem State.putResult_sp (s : State) (r : Byte) :
    (s.putResult r).sp = s.sp := by unfold State.putResult; split <;> simp
@[simp] theorem State.putResult_ps (s : State) (r : Byte) :
    (s.putResult r).ps = s.ps := by unfold State.putResult; split <;> simp
@[simp] theorem State.putResult_pc (s : State) (r : Byte) :
    (s.putResult r).pc = s.pc := by unfold State.putResult; split <;> simp
@[simp] theorem State.putResult_run (s : State) (r : Byte) :
    (s.putResult r).run = s.run := by unfold State.putResult; split <;> simp
@[simp] theorem State.putResult_prev (s : State) (r : Byte) :
    (s.putResult r).prev = s.prev := by unfold State.putResult; split <;> simp
@[simp] theorem State.putResult_cfg (s : State) (r : Byte) :
    (s.putResult r).cfg = s.cfg := by unfold State.putResult; split <;> simp
@[simp] theorem State.putResult_inputs (s : State) (r : Byte) :
    (s.putResult r).inputs = s.inputs := by unfold State.putResult; split <;> simp
@[simp] theorem State.putResult_draws (s : State) (r : Byte) :
    (s.putResult r).draws = s.draws := by unfold State.putResult; split <;> simp
@[simp] theorem State.putResult_flag (s : State) (r : Byte) (fl : Flag) :
    (s.putResult r).flag fl = s.flag fl := by simp [State.flag]

/-- A is written when `PS.T = 0`, and kept when it is 1 (R141). -/
@[simp] theorem State.putResult_a (s : State) (r : Byte) :
    (s.putResult r).a = if s.flag .t then s.a else r := by
  unfold State.putResult
  split <;> simp_all

/-- The byte stored at an address after the result is put (R141). -/
theorem State.peek_putResult (s : State) (r : Byte) (b : Addr) :
    (s.putResult r).peek b =
      if b = zpAddr s.x ∧ s.flag .t ∧ writable s.cfg (zpAddr s.x) then r else s.peek b := by
  unfold State.putResult
  cases h : s.flag .t
  · rw [if_neg (by simp), if_neg (by simp)]
    rfl
  · rw [if_pos rfl, State.peek_write]
    simp

/-- Putting a result keeps the memory's canonical form. -/
theorem State.wf_putResult (s : State) (r : Byte) (h : s.mem.wf) : (s.putResult r).mem.wf := by
  unfold State.putResult
  split
  · exact State.wf_write s _ r h
  · exact h

/-! ### Control bits -/

/-- The hardware's write of a control bit changes the memory and nothing else. -/
theorem State.setBitAt_eq (s : State) (l : BitLoc) (b : Bool) :
    s.setBitAt l b =
      { s with
        mem := if writable s.cfg l.addr then s.mem.set l.addr.toNat (withBit (s.peek l.addr) l.bit b) else s.mem } :=
  State.put_eq s l.addr _

/-! ### `State.setBitAt` -/

@[simp] theorem State.setBitAt_a (s : State) (l : BitLoc) (b : Bool) :
    (s.setBitAt l b).a = s.a := by rw [State.setBitAt_eq]
@[simp] theorem State.setBitAt_x (s : State) (l : BitLoc) (b : Bool) :
    (s.setBitAt l b).x = s.x := by rw [State.setBitAt_eq]
@[simp] theorem State.setBitAt_y (s : State) (l : BitLoc) (b : Bool) :
    (s.setBitAt l b).y = s.y := by rw [State.setBitAt_eq]
@[simp] theorem State.setBitAt_sp (s : State) (l : BitLoc) (b : Bool) :
    (s.setBitAt l b).sp = s.sp := by rw [State.setBitAt_eq]
@[simp] theorem State.setBitAt_ps (s : State) (l : BitLoc) (b : Bool) :
    (s.setBitAt l b).ps = s.ps := by rw [State.setBitAt_eq]
@[simp] theorem State.setBitAt_pc (s : State) (l : BitLoc) (b : Bool) :
    (s.setBitAt l b).pc = s.pc := by rw [State.setBitAt_eq]
@[simp] theorem State.setBitAt_run (s : State) (l : BitLoc) (b : Bool) :
    (s.setBitAt l b).run = s.run := by rw [State.setBitAt_eq]
@[simp] theorem State.setBitAt_prev (s : State) (l : BitLoc) (b : Bool) :
    (s.setBitAt l b).prev = s.prev := by rw [State.setBitAt_eq]
@[simp] theorem State.setBitAt_cfg (s : State) (l : BitLoc) (b : Bool) :
    (s.setBitAt l b).cfg = s.cfg := by rw [State.setBitAt_eq]
@[simp] theorem State.setBitAt_bus (s : State) (l : BitLoc) (b : Bool) :
    (s.setBitAt l b).bus = s.bus := by rw [State.setBitAt_eq]
@[simp] theorem State.setBitAt_inputs (s : State) (l : BitLoc) (b : Bool) :
    (s.setBitAt l b).inputs = s.inputs := by rw [State.setBitAt_eq]
@[simp] theorem State.setBitAt_draws (s : State) (l : BitLoc) (b : Bool) :
    (s.setBitAt l b).draws = s.draws := by rw [State.setBitAt_eq]
@[simp] theorem State.setBitAt_flag (s : State) (l : BitLoc) (b : Bool) (fl : Flag) :
    (s.setBitAt l b).flag fl = s.flag fl := by simp [State.flag]

/-- A control bit that the hardware has written reads as it was written, where its byte can be written. -/
theorem State.bitAt_setBitAt (s : State) (l : BitLoc) (b : Bool) (h : writable s.cfg l.addr = true) :
    (s.setBitAt l b).bitAt l = b := by
  unfold State.bitAt State.setBitAt
  rw [State.peek_put, if_pos ⟨rfl, h⟩, getLsbD_withBit _ _ _ _ l.bit.isLt l.bit.isLt, if_pos rfl]

/-- The hardware's write of a control bit keeps the memory's canonical form. -/
theorem State.wf_setBitAt (s : State) (l : BitLoc) (b : Bool) (h : s.mem.wf) : (s.setBitAt l b).mem.wf :=
  State.wf_put s _ _ h

/-- A bit of memory after the hardware has set a control bit: it is set if it is the one written, and kept if not. -/
theorem State.getLsbD_peek_setBitAt (s : State) (l : BitLoc) (a : Addr) (j : Nat) (hj : j < 8) :
    ((s.setBitAt l true).peek a).getLsbD j =
      ((s.peek a).getLsbD j || (decide (a = l.addr) && writable s.cfg a && decide (j = (l.bit : Nat)))) := by
  unfold State.setBitAt
  rw [State.peek_put]
  by_cases ha : a = l.addr
  · subst ha
    cases hw : writable s.cfg l.addr
    · simp
    · rw [if_pos ⟨rfl, rfl⟩, getLsbD_withBit _ _ _ _ l.bit.isLt hj]
      by_cases e : j = (l.bit : Nat) <;> simp [e, eq_comm]
  · rw [if_neg fun k => ha k.1]
    simp [ha]

/-! ### Requests inside an instruction -/

/-- A request's bit is the bit of a number in the byte at an address. -/
def raisesBit (p : Product) (a : Addr) (j : Nat) (n : Nat) : Bool :=
  match p.sources[n]? with
  | some k => decide (a = k.request.addr) && writable p a && decide (j = (k.request.bit : Nat))
  | none => false

/-- A device's request changes the memory and nothing else. -/
theorem State.raise_eq (s : State) (n : Nat) : ∃ m, s.raise n = { s with mem := m } := by
  unfold State.raise
  split
  · exact ⟨s.mem, rfl⟩
  · exact ⟨_, State.setBitAt_eq s _ _⟩

/-- A bit of memory after a device's request. -/
theorem State.getLsbD_peek_raise (s : State) (n : Nat) (a : Addr) (j : Nat) (hj : j < 8) :
    ((s.raise n).peek a).getLsbD j = ((s.peek a).getLsbD j || raisesBit s.cfg a j n) := by
  unfold State.raise raisesBit
  cases s.cfg.sources[n]? with
  | none => simp
  | some k => exact State.getLsbD_peek_setBitAt s k.request a j hj

/-- A device's request keeps the memory's canonical form. -/
theorem State.wf_raise (s : State) (n : Nat) (h : s.mem.wf) : (s.raise n).mem.wf := by
  unfold State.raise
  split
  · exact h
  · exact State.wf_setBitAt s _ _ h

/-- The requests of a list change the memory and nothing else: they set their bits, and keep its canonical form. -/
theorem State.foldl_raise (rs : List Arrival) (s : State) :
    ∃ m, rs.foldl (fun t r => t.raise r.source) s = { s with mem := m } ∧ (s.mem.wf → m.wf) ∧
      ∀ (a : Addr) (j : Nat), j < 8 →
        (m.get a.toNat).getLsbD j = ((s.peek a).getLsbD j || rs.any fun r => raisesBit s.cfg a j r.source) := by
  induction rs generalizing s with
  | nil => exact ⟨s.mem, rfl, id, fun a j _ => by simp [State.peek]⟩
  | cons r rs ih =>
    obtain ⟨n, hn⟩ := State.raise_eq s r.source
    obtain ⟨m, hm, hw, hb⟩ := ih (s.raise r.source)
    refine ⟨m, ?_, fun h => hw (State.wf_raise s _ h), fun a j hj => ?_⟩
    · rw [List.foldl_cons, hm, hn]
    · rw [hb a j hj, State.getLsbD_peek_raise s _ a j hj, List.any_cons, Bool.or_assoc]
      rw [hn]

/-- What the end of an instruction's inside does: the requests that are left set their bits in memory, the bus is empty,
and nothing else changes (R76). -/
theorem State.settle_eq (s : State) :
    ∃ m, s.settle = { s with mem := m, bus := {} } ∧ (s.mem.wf → m.wf) ∧
      ∀ (a : Addr) (j : Nat), j < 8 →
        (m.get a.toNat).getLsbD j =
          ((s.peek a).getLsbD j || s.bus.arrivals.any fun r => raisesBit s.cfg a j r.source) := by
  obtain ⟨m, hm, hw, hb⟩ := State.foldl_raise s.bus.arrivals s
  exact ⟨m, by unfold State.settle; rw [hm], hw, hb⟩

/-- A bit of memory after the requests that arrived have landed. -/
theorem State.getLsbD_peek_settle (s : State) (a : Addr) (j : Nat) (hj : j < 8) :
    (s.settle.peek a).getLsbD j =
      ((s.peek a).getLsbD j || s.bus.arrivals.any fun r => raisesBit s.cfg a j r.source) := by
  obtain ⟨m, hm, _, hb⟩ := State.settle_eq s
  rw [hm]
  exact hb a j hj

/-- The landing of the requests keeps the memory's canonical form. -/
theorem State.wf_settle (s : State) (h : s.mem.wf) : s.settle.mem.wf := by
  obtain ⟨m, hm, hw, _⟩ := State.settle_eq s
  rw [hm]
  exact hw h

/-- A byte that no request reaches is kept. -/
theorem State.peek_settle_of (s : State) (a : Addr)
    (h : writable s.cfg a = false ∨ ∀ k ∈ s.cfg.sources, k.request.addr ≠ a) : s.settle.peek a = s.peek a := by
  apply BitVec.eq_of_getLsbD_eq
  intro j hj
  rw [State.getLsbD_peek_settle s a j hj]
  have : (s.bus.arrivals.any fun r => raisesBit s.cfg a j r.source) = false := by
    rw [List.any_eq_false]
    intro r _
    unfold raisesBit
    split
    · next k hk =>
      rcases h with h | h
      · simp [h]
      · have := h k (List.mem_of_getElem? hk)
        simp [this.symm]
    · simp
  simp [this]

/-- Where nothing arrived, only the bus is emptied. -/
theorem State.settle_of_no_arrival (s : State) (h : s.bus.arrivals = []) : s.settle = { s with bus := {} } := by
  simp [State.settle, h]

/-! ### `State.settle` -/

@[simp] theorem State.settle_a (s : State) : s.settle.a = s.a := by
  obtain ⟨m, hm, _⟩ := State.settle_eq s
  rw [hm]
@[simp] theorem State.settle_x (s : State) : s.settle.x = s.x := by
  obtain ⟨m, hm, _⟩ := State.settle_eq s
  rw [hm]
@[simp] theorem State.settle_y (s : State) : s.settle.y = s.y := by
  obtain ⟨m, hm, _⟩ := State.settle_eq s
  rw [hm]
@[simp] theorem State.settle_sp (s : State) : s.settle.sp = s.sp := by
  obtain ⟨m, hm, _⟩ := State.settle_eq s
  rw [hm]
@[simp] theorem State.settle_ps (s : State) : s.settle.ps = s.ps := by
  obtain ⟨m, hm, _⟩ := State.settle_eq s
  rw [hm]
@[simp] theorem State.settle_pc (s : State) : s.settle.pc = s.pc := by
  obtain ⟨m, hm, _⟩ := State.settle_eq s
  rw [hm]
@[simp] theorem State.settle_run (s : State) : s.settle.run = s.run := by
  obtain ⟨m, hm, _⟩ := State.settle_eq s
  rw [hm]
@[simp] theorem State.settle_prev (s : State) : s.settle.prev = s.prev := by
  obtain ⟨m, hm, _⟩ := State.settle_eq s
  rw [hm]
@[simp] theorem State.settle_cfg (s : State) : s.settle.cfg = s.cfg := by
  obtain ⟨m, hm, _⟩ := State.settle_eq s
  rw [hm]
@[simp] theorem State.settle_inputs (s : State) : s.settle.inputs = s.inputs := by
  obtain ⟨m, hm, _⟩ := State.settle_eq s
  rw [hm]
@[simp] theorem State.settle_draws (s : State) : s.settle.draws = s.draws := by
  obtain ⟨m, hm, _⟩ := State.settle_eq s
  rw [hm]
@[simp] theorem State.settle_bus (s : State) : s.settle.bus = {} := rfl
@[simp] theorem State.settle_flag (s : State) (fl : Flag) : s.settle.flag fl = s.flag fl := by simp [State.flag]

/-! ### `State.retire` -/

/-- The end of an instruction lands what arrived, writes the history and numbers the next step. -/
theorem State.retire_eq (i : Instr) (s t : State) :
    State.retire i s t = { t.settle with prev := prevAfter i s t, draws := t.draws + 1 } := by
  unfold State.retire State.tick
  simp

@[simp] theorem State.retire_a (i : Instr) (s t : State) : (State.retire i s t).a = t.a := by
  simp [State.retire_eq]
@[simp] theorem State.retire_x (i : Instr) (s t : State) : (State.retire i s t).x = t.x := by
  simp [State.retire_eq]
@[simp] theorem State.retire_y (i : Instr) (s t : State) : (State.retire i s t).y = t.y := by
  simp [State.retire_eq]
@[simp] theorem State.retire_sp (i : Instr) (s t : State) : (State.retire i s t).sp = t.sp := by
  simp [State.retire_eq]
@[simp] theorem State.retire_ps (i : Instr) (s t : State) : (State.retire i s t).ps = t.ps := by
  simp [State.retire_eq]
@[simp] theorem State.retire_pc (i : Instr) (s t : State) : (State.retire i s t).pc = t.pc := by
  simp [State.retire_eq]
@[simp] theorem State.retire_run (i : Instr) (s t : State) : (State.retire i s t).run = t.run := by
  simp [State.retire_eq]
@[simp] theorem State.retire_cfg (i : Instr) (s t : State) : (State.retire i s t).cfg = t.cfg := by
  simp [State.retire_eq]
@[simp] theorem State.retire_inputs (i : Instr) (s t : State) : (State.retire i s t).inputs = t.inputs := by
  simp [State.retire_eq]
@[simp] theorem State.retire_mem (i : Instr) (s t : State) : (State.retire i s t).mem = t.settle.mem := rfl
@[simp] theorem State.retire_peek (i : Instr) (s t : State) (q : Addr) :
    (State.retire i s t).peek q = t.settle.peek q := rfl
@[simp] theorem State.retire_flag (i : Instr) (s t : State) (fl : Flag) :
    (State.retire i s t).flag fl = t.flag fl := by simp [State.flag]
@[simp] theorem State.retire_draws (i : Instr) (s t : State) : (State.retire i s t).draws = t.draws + 1 := by
  simp [State.retire_eq]
@[simp] theorem State.retire_prev (i : Instr) (s t : State) : (State.retire i s t).prev = prevAfter i s t := rfl
@[simp] theorem State.retire_bus (i : Instr) (s t : State) : (State.retire i s t).bus = {} := rfl

/-! ### Taking an exception and returning from one -/

/-- `PS` after the context is saved: B is as given, I is 1, the other six flags are kept (R309). -/
theorem State.saveContext_ps (s : State) (brk : Bool) (ret : Addr) :
    (s.saveContext brk ret).ps = ((s.setFlag .b brk).setFlag .i true).ps := by
  simp [State.saveContext, State.push16, State.setFlag]

@[simp] theorem State.saveContext_sp (s : State) (brk : Bool) (ret : Addr) :
    (s.saveContext brk ret).sp = s.sp - 1 - 1 - 1 := by simp [State.saveContext, State.push16]

/-! ### `State.saveContext` -/

@[simp] theorem State.saveContext_a (s : State) (brk : Bool) (ret : Addr) :
    (s.saveContext brk ret).a = s.a := by simp [State.saveContext, State.push16]
@[simp] theorem State.saveContext_x (s : State) (brk : Bool) (ret : Addr) :
    (s.saveContext brk ret).x = s.x := by simp [State.saveContext, State.push16]
@[simp] theorem State.saveContext_y (s : State) (brk : Bool) (ret : Addr) :
    (s.saveContext brk ret).y = s.y := by simp [State.saveContext, State.push16]
@[simp] theorem State.saveContext_pc (s : State) (brk : Bool) (ret : Addr) :
    (s.saveContext brk ret).pc = s.pc := by simp [State.saveContext, State.push16]
@[simp] theorem State.saveContext_run (s : State) (brk : Bool) (ret : Addr) :
    (s.saveContext brk ret).run = s.run := by simp [State.saveContext, State.push16]
@[simp] theorem State.saveContext_prev (s : State) (brk : Bool) (ret : Addr) :
    (s.saveContext brk ret).prev = s.prev := by simp [State.saveContext, State.push16]
@[simp] theorem State.saveContext_cfg (s : State) (brk : Bool) (ret : Addr) :
    (s.saveContext brk ret).cfg = s.cfg := by simp [State.saveContext, State.push16]
@[simp] theorem State.saveContext_inputs (s : State) (brk : Bool) (ret : Addr) :
    (s.saveContext brk ret).inputs = s.inputs := by simp [State.saveContext, State.push16]
@[simp] theorem State.saveContext_draws (s : State) (brk : Bool) (ret : Addr) :
    (s.saveContext brk ret).draws = s.draws := by simp [State.saveContext, State.push16]

/-- Saving the context keeps the memory's canonical form. -/
theorem State.wf_saveContext (s : State) (brk : Bool) (ret : Addr) (h : s.mem.wf) :
    (s.saveContext brk ret).mem.wf :=
  State.wf_push _ _ (State.wf_push _ _ (State.wf_push _ _ h))

/-- Taking an exception is saving the context and loading PC from the vector (R306, R307). -/
theorem State.takeException_eq (s : State) (brk : Bool) (ret v : Addr) (lo hi : Draw) :
    s.takeException brk ret v lo hi =
      { s.saveContext brk ret with pc := (s.saveContext brk ret).read16 lo hi v } := rfl

/-- Taking an exception keeps the memory's canonical form. -/
theorem State.wf_takeException (s : State) (brk : Bool) (ret v : Addr) (lo hi : Draw) (h : s.mem.wf) :
    (s.takeException brk ret v lo hi).mem.wf := by
  rw [State.takeException_eq]
  exact State.wf_saveContext s brk ret h

/-! ### `State.takeException` -/

@[simp] theorem State.takeException_a (s : State) (brk : Bool) (ret v : Addr) (lo hi : Draw) :
    (s.takeException brk ret v lo hi).a = s.a := by simp [State.takeException_eq]
@[simp] theorem State.takeException_x (s : State) (brk : Bool) (ret v : Addr) (lo hi : Draw) :
    (s.takeException brk ret v lo hi).x = s.x := by simp [State.takeException_eq]
@[simp] theorem State.takeException_y (s : State) (brk : Bool) (ret v : Addr) (lo hi : Draw) :
    (s.takeException brk ret v lo hi).y = s.y := by simp [State.takeException_eq]
@[simp] theorem State.takeException_run (s : State) (brk : Bool) (ret v : Addr) (lo hi : Draw) :
    (s.takeException brk ret v lo hi).run = s.run := by simp [State.takeException_eq]
@[simp] theorem State.takeException_prev (s : State) (brk : Bool) (ret v : Addr) (lo hi : Draw) :
    (s.takeException brk ret v lo hi).prev = s.prev := by simp [State.takeException_eq]
@[simp] theorem State.takeException_cfg (s : State) (brk : Bool) (ret v : Addr) (lo hi : Draw) :
    (s.takeException brk ret v lo hi).cfg = s.cfg := by simp [State.takeException_eq]
@[simp] theorem State.takeException_inputs (s : State) (brk : Bool) (ret v : Addr) (lo hi : Draw) :
    (s.takeException brk ret v lo hi).inputs = s.inputs := by simp [State.takeException_eq]
@[simp] theorem State.takeException_draws (s : State) (brk : Bool) (ret v : Addr) (lo hi : Draw) :
    (s.takeException brk ret v lo hi).draws = s.draws := by simp [State.takeException_eq]

@[simp] theorem State.takeException_mem (s : State) (brk : Bool) (ret v : Addr) (lo hi : Draw) :
    (s.takeException brk ret v lo hi).mem = (s.saveContext brk ret).mem := rfl
@[simp] theorem State.takeException_sp (s : State) (brk : Bool) (ret v : Addr) (lo hi : Draw) :
    (s.takeException brk ret v lo hi).sp = (s.saveContext brk ret).sp := rfl
@[simp] theorem State.takeException_ps (s : State) (brk : Bool) (ret v : Addr) (lo hi : Draw) :
    (s.takeException brk ret v lo hi).ps = (s.saveContext brk ret).ps := rfl
@[simp] theorem State.takeException_pc (s : State) (brk : Bool) (ret v : Addr) (lo hi : Draw) :
    (s.takeException brk ret v lo hi).pc = (s.saveContext brk ret).read16 lo hi v := rfl

/-- The entry for a source clears its request bit, takes the exception, and runs (R306). -/
theorem State.enterInterrupt_eq (s : State) (k : IntSource) :
    s.enterInterrupt k =
      { (s.setBitAt k.request false).takeException false s.pc k.vector .irqVectorLo .irqVectorHi with
        run := .running } := rfl

/-- The entry for a source keeps the memory's canonical form. -/
theorem State.wf_enterInterrupt (s : State) (k : IntSource) (h : s.mem.wf) : (s.enterInterrupt k).mem.wf :=
  State.wf_takeException (s.setBitAt k.request false) false s.pc k.vector .irqVectorLo .irqVectorHi
    (State.wf_setBitAt s k.request false h)

/-- The return from an exception reads three bytes above `S` and changes `PS`, PC and `S` (R266, R313). -/
theorem State.returnFromException_eq (s : State) :
    s.returnFromException =
      { s with
        ps := s.read .pull1 (s.stackAddr (s.sp + 1))
        sp := s.sp + 1 + 1 + 1
        pc := join (s.read .pull3 (s.stackAddr (s.sp + 1 + 1 + 1))) (s.read .pull2 (s.stackAddr (s.sp + 1 + 1))) } := rfl

/-! ### Reset and loading from outside -/

/-- The memory after a reset is canonical (R344). -/
theorem wf_resetMemory (p : Product) (m : Memory) (ram : List Host.Cell) (h : m.wf) : (resetMemory p m ram).wf := by
  have key : ∀ (l : List Host.Cell) (n : Memory), n.wf →
      Memory.wf (l.foldl (fun m c =>
        if c.1 < 65536 ∧ classOf p (BitVec.ofNat 16 c.1) ≠ .rom ∧ classOf p (BitVec.ofNat 16 c.1) ≠ .unmapped then
          m.set c.1 c.2
        else m) n) := by
    intro l
    induction l with
    | nil => exact fun n hn => hn
    | cons c l ih =>
      intro n hn
      rw [List.foldl_cons]
      apply ih
      split
      · next hc => exact Memory.wf_set hn c.1 c.2 hc.1
      · exact hn
  exact key ram _ (Memory.wf_filter h _)

/-- A byte of ROM is the same after a reset (R346). -/
theorem get_resetMemory_rom (p : Product) (m : Memory) (ram : List Host.Cell) (a : Addr)
    (ha : classOf p a = .rom) : (resetMemory p m ram).get a.toNat = m.get a.toNat := by
  have key : ∀ (l : List Host.Cell) (n : Memory),
      Memory.get (l.foldl (fun m c =>
        if c.1 < 65536 ∧ classOf p (BitVec.ofNat 16 c.1) ≠ .rom ∧ classOf p (BitVec.ofNat 16 c.1) ≠ .unmapped then
          m.set c.1 c.2
        else m) n) a.toNat = n.get a.toNat := by
    intro l
    induction l with
    | nil => exact fun n => rfl
    | cons c l ih =>
      intro n
      rw [List.foldl_cons, ih]
      split
      · next hc =>
        rw [Memory.get_set, if_neg]
        intro e
        apply hc.2.1
        rw [← e, BitVec.ofNat_toNat, BitVec.setWidth_eq]
        exact ha
      · rfl
  rw [resetMemory, key, Memory.get_filter m (fun k => classOf p (BitVec.ofNat 16 k) == .rom)]
  rw [BitVec.ofNat_toNat, BitVec.setWidth_eq, ha]
  rfl

/-- Loading a byte from outside keeps the memory's canonical form. -/
theorem State.wf_loadByte (s : State) (a : Addr) (v : Byte) (h : s.mem.wf) : (s.loadByte a v).mem.wf :=
  Memory.wf_set h a.toNat v a.isLt

/-- The devices' requests at a boundary keep the memory's canonical form. -/
theorem State.wf_request (s : State) (k : Nat) (h : s.mem.wf) : (s.request k).mem.wf := by
  unfold State.request
  split
  · exact h
  · split
    · exact h
    · exact State.wf_raise s _ h

end Sys2Proof.Machine
end

