-- ==== Sys2Proof/Laws/Exec.lean ====
section
/-! SUPPORT. What an instruction can do to memory and to the bus, said once for all of them but BRK: it stores nothing, or
it writes one byte, or it pushes two. -/

namespace Sys2Proof.Machine

open Sys2Proof Sys2Proof.Config

/-- The memory and the bus of two states are the same. -/
def SameMemory (s t : State) : Prop := t.mem = s.mem ∧ t.bus = s.bus

/-- MUL and DIV each push one byte (R188, R189). -/
theorem State.divideBy_eq (s : State) (zz : Byte) :
    ∃ p q, s.divideBy zz = { s.push p with a := q }.advance 2 := by
  unfold State.divideBy
  split <;> exact ⟨_, _, rfl⟩

/-! What each shared operation stores. -/

theorem sameMemory_load (s : State) (o : Operand) : SameMemory (s.putResult (o.value s)) (s.load o) := ⟨rfl, rfl⟩

theorem sameMemory_adc (s : State) (o : Operand) :
    SameMemory (s.putResult (s.addOut s.firstOperand (o.value s)).result) (s.adc o) := ⟨rfl, rfl⟩

theorem sameMemory_sbc (s : State) (o : Operand) :
    SameMemory (s.putResult (s.subOut s.firstOperand (o.value s)).result) (s.sbc o) := ⟨rfl, rfl⟩

theorem sameMemory_logic (s : State) (o : Operand) (f : Byte → Byte → Byte) :
    SameMemory (s.putResult (f s.firstOperand (o.value s))) (s.logic o f) := ⟨rfl, rfl⟩

theorem sameMemory_branch (s : State) (n : Nat) (rr : Byte) (k : Bool) : SameMemory s (s.branch n rr k) :=
  ⟨State.branch_mem s n rr k, State.branch_bus s n rr k⟩

theorem sameMemory_store (s : State) (m : EaMode) (v : Byte) : SameMemory (s.write (m.ea s) v) (s.store m v) :=
  ⟨rfl, rfl⟩

theorem sameMemory_modifyNZ (s : State) (m : EaMode) (f : Byte → Byte) :
    SameMemory (s.write (m.ea s) (f ((Operand.mem m).value s))) (s.modifyNZ m f) := ⟨rfl, rfl⟩

theorem sameMemory_shiftMem (s : State) (m : EaMode) (f : Byte → Bool → ShiftOut) :
    SameMemory (s.write (m.ea s) (f ((Operand.mem m).value s) (s.flag .c)).result) (s.shiftMem m f) := ⟨rfl, rfl⟩

theorem sameMemory_rotateFour (s : State) (zz : Byte) :
    SameMemory (s.write (zpAddr zz) (swapHalves ((Operand.mem (.zp zz)).value s))) (s.rotateFour zz) := ⟨rfl, rfl⟩

theorem sameMemory_bitMem (s : State) (i : Nat) (zz : Byte) (b : Bool) :
    SameMemory (s.write (zpAddr zz) (withBit ((Operand.mem (.zp zz)).value s) i b)) (s.bitMem i zz b) := ⟨rfl, rfl⟩

theorem sameMemory_push (s : State) (v : Byte) (n : Nat) :
    SameMemory (s.write (s.stackAddr s.sp) v) ((s.push v).advance n) := ⟨rfl, rfl⟩

theorem sameMemory_call (s : State) (len : Nat) (w : Addr) (hw : s.pc + BitVec.ofNat 16 (len - 1) = w) (target : Addr) :
    SameMemory ((s.push (hiByte w)).push (loByte w)) ((s.call len).jump target) := by
  subst hw
  exact ⟨rfl, rfl⟩

/-- An instruction's state `t` after it: nothing stored, one byte written, or two pushed, at the addresses of its form. -/
def Stores (i : Instr) (s t : State) : Prop :=
  (storedAddrs i s = [] ∧ SameMemory s t) ∨
    (∃ a v, storedAddrs i s = [a] ∧ SameMemory (s.write a v) t) ∨
    ∃ v w, storedAddrs i s = pushAddrs s [v, w] ∧ SameMemory ((s.push v).push w) t

/-- An instruction of the T mode stores one byte or none (R141). -/
theorem stores_putResult (i : Instr) (s : State) (r : Byte) (t : State) (hi : storedAddrs i s = modeTAddrs s)
    (h : SameMemory (s.putResult r) t) : Stores i s t := by
  unfold modeTAddrs at hi
  unfold State.putResult at h
  cases e : s.flag .t
  · rw [e] at hi h
    exact .inl ⟨hi, h⟩
  · rw [e] at hi h
    exact .inr (.inl ⟨zpAddr s.x, r, hi, h⟩)

theorem next_inj {u t : State} (h : (Host.Outcome.next u : Result) = .next t) : u = t := Host.Outcome.next.inj h

/-- An instruction other than BRK stores nothing, writes one byte, or pushes two: at the addresses of its form, and with
nothing else on the bus. -/
theorem exec_stores (i : Instr) (s t : State) (hi : i ≠ .brk) (h : exec i s = .next t) : Stores i s t := by
  cases i
  case brk => exact absurd rfl hi
  case mulZpX zz =>
    change (if s.cfg.hasMulDiv then Host.Outcome.next _ else _) = _ at h
    split at h <;> cases h
    exact .inr (.inl ⟨_, _, rfl, rfl, rfl⟩)
  case divZpX zz =>
    change (if s.cfg.hasMulDiv then Host.Outcome.next _ else _) = _ at h
    split at h <;> cases h
    obtain ⟨p, q, e⟩ := State.divideBy_eq s zz
    rw [e]
    exact .inr (.inl ⟨s.stackAddr s.sp, p, rfl, rfl, rfl⟩)
  case jmpInd ll hh =>
    change (if ll = 0xFF then _ else Host.Outcome.next _) = _ at h
    split at h <;> cases h
    exact .inl ⟨rfl, rfl, rfl⟩
  case stp =>
    change execStp s = _ at h
    unfold execStp at h
    split at h <;> cases h <;> exact .inl ⟨rfl, rfl, rfl⟩
  case ldaImm | ldaZp | ldaZpX | ldaAbs | ldaAbsX | ldaAbsY | ldaIndX | ldaIndY =>
    obtain rfl := next_inj h
    exact stores_putResult _ s _ _ rfl (sameMemory_load s _)
  case adcImm | adcZp | adcZpX | adcAbs | adcAbsX | adcAbsY | adcIndX | adcIndY =>
    obtain rfl := next_inj h
    exact stores_putResult _ s _ _ rfl (sameMemory_adc s _)
  case sbcImm | sbcZp | sbcZpX | sbcAbs | sbcAbsX | sbcAbsY | sbcIndX | sbcIndY =>
    obtain rfl := next_inj h
    exact stores_putResult _ s _ _ rfl (sameMemory_sbc s _)
  case andImm | andZp | andZpX | andAbs | andAbsX | andAbsY | andIndX | andIndY | oraImm | oraZp | oraZpX | oraAbs |
      oraAbsX | oraAbsY | oraIndX | oraIndY | eorImm | eorZp | eorZpX | eorAbs | eorAbsX | eorAbsY | eorIndX |
      eorIndY =>
    obtain rfl := next_inj h
    exact stores_putResult _ s _ _ rfl (sameMemory_logic s _ _)
  case staZp | stxZp | styZp | staZpX | styZpX | stxZpY | staAbs | stxAbs | styAbs | staAbsX | staAbsY | staIndX |
      staIndY =>
    obtain rfl := next_inj h
    exact .inr (.inl ⟨_, _, rfl, sameMemory_store s _ _⟩)
  case incZp | decZp | comZp | incZpX | decZpX | incAbs | decAbs | incAbsX | decAbsX =>
    obtain rfl := next_inj h
    exact .inr (.inl ⟨_, _, rfl, sameMemory_modifyNZ s _ _⟩)
  case aslZp | lsrZp | rolZp | rorZp | aslZpX | lsrZpX | rolZpX | rorZpX | aslAbs | lsrAbs | rolAbs | rorAbs | aslAbsX |
      lsrAbsX | rolAbsX | rorAbsX =>
    obtain rfl := next_inj h
    exact .inr (.inl ⟨_, _, rfl, sameMemory_shiftMem s _ _⟩)
  case rrfZp =>
    obtain rfl := next_inj h
    exact .inr (.inl ⟨_, _, rfl, sameMemory_rotateFour s _⟩)
  case clbZp | sebZp =>
    obtain rfl := next_inj h
    exact .inr (.inl ⟨_, _, rfl, sameMemory_bitMem s _ _ _⟩)
  case ldmZp =>
    obtain rfl := next_inj h
    exact .inr (.inl ⟨_, _, rfl, rfl, rfl⟩)
  case pha | php =>
    obtain rfl := next_inj h
    exact .inr (.inl ⟨_, _, rfl, sameMemory_push s _ _⟩)
  case jsrAbs =>
    obtain rfl := next_inj h
    exact .inr (.inr ⟨_, _, rfl, sameMemory_call s 3 (s.pc + 2) rfl _⟩)
  case jsrZpInd | jsrSpecial =>
    obtain rfl := next_inj h
    exact .inr (.inr ⟨_, _, rfl, sameMemory_call s 2 (s.pc + 1) rfl _⟩)
  case bra | bcc | bcs | bne | beq | bpl | bmi | bvc | bvs | bbcAcc | bbcZp | bbsAcc | bbsZp =>
    obtain rfl := next_inj h
    exact .inl ⟨rfl, sameMemory_branch s _ _ _⟩
  all_goals
    obtain rfl := next_inj h
    exact .inl ⟨rfl, rfl, rfl⟩

end Sys2Proof.Machine
end

