-- ==== Sys2Proof/Laws/PerInstr.lean ====
section
/-! SUPPORT. The family `Format`: an instruction's encoding has as many bytes as the format of its addressing mode says
(R91), with LDM the one exception, three bytes in the Zero Page mode. One lemma for each constructor. -/

namespace Sys2Proof.Laws.Format

open Sys2Proof

/-- The bytes of an addressing mode's format: F1 one, F2 two, F3 three (R91). -/
def modeBytes : AddrMode → Nat
  | .implied | .accumulator | .accumulatorBit => 1
  | .immediate | .zeroPage | .zeroPageX | .zeroPageY | .indirectX | .indirectY | .zeroPageIndirect | .specialPage
  | .relative | .zeroPageBit | .accumulatorBitRelative => 2
  | .absolute | .absoluteX | .absoluteY | .indirectAbsolute | .zeroPageBitRelative => 3

/-- The instruction's length is that of its mode's format, and LDM's is 3 (R91). -/
def Statement (i : Instr) : Prop := i.length = if i.mnemonic = .ldm then 3 else modeBytes i.mode

theorem ldaImm (nn : Byte) : Statement (.ldaImm nn) := rfl
theorem ldaZp (zz : Byte) : Statement (.ldaZp zz) := rfl
theorem ldaZpX (zz : Byte) : Statement (.ldaZpX zz) := rfl
theorem ldaAbs (ll hh : Byte) : Statement (.ldaAbs ll hh) := rfl
theorem ldaAbsX (ll hh : Byte) : Statement (.ldaAbsX ll hh) := rfl
theorem ldaAbsY (ll hh : Byte) : Statement (.ldaAbsY ll hh) := rfl
theorem ldaIndX (zz : Byte) : Statement (.ldaIndX zz) := rfl
theorem ldaIndY (zz : Byte) : Statement (.ldaIndY zz) := rfl
theorem ldmZp (nn zz : Byte) : Statement (.ldmZp nn zz) := rfl
theorem ldxImm (nn : Byte) : Statement (.ldxImm nn) := rfl
theorem ldxZp (zz : Byte) : Statement (.ldxZp zz) := rfl
theorem ldxZpY (zz : Byte) : Statement (.ldxZpY zz) := rfl
theorem ldxAbs (ll hh : Byte) : Statement (.ldxAbs ll hh) := rfl
theorem ldxAbsY (ll hh : Byte) : Statement (.ldxAbsY ll hh) := rfl
theorem ldyImm (nn : Byte) : Statement (.ldyImm nn) := rfl
theorem ldyZp (zz : Byte) : Statement (.ldyZp zz) := rfl
theorem ldyZpX (zz : Byte) : Statement (.ldyZpX zz) := rfl
theorem ldyAbs (ll hh : Byte) : Statement (.ldyAbs ll hh) := rfl
theorem ldyAbsX (ll hh : Byte) : Statement (.ldyAbsX ll hh) := rfl
theorem staZp (zz : Byte) : Statement (.staZp zz) := rfl
theorem staZpX (zz : Byte) : Statement (.staZpX zz) := rfl
theorem staAbs (ll hh : Byte) : Statement (.staAbs ll hh) := rfl
theorem staAbsX (ll hh : Byte) : Statement (.staAbsX ll hh) := rfl
theorem staAbsY (ll hh : Byte) : Statement (.staAbsY ll hh) := rfl
theorem staIndX (zz : Byte) : Statement (.staIndX zz) := rfl
theorem staIndY (zz : Byte) : Statement (.staIndY zz) := rfl
theorem stxZp (zz : Byte) : Statement (.stxZp zz) := rfl
theorem stxZpY (zz : Byte) : Statement (.stxZpY zz) := rfl
theorem stxAbs (ll hh : Byte) : Statement (.stxAbs ll hh) := rfl
theorem styZp (zz : Byte) : Statement (.styZp zz) := rfl
theorem styZpX (zz : Byte) : Statement (.styZpX zz) := rfl
theorem styAbs (ll hh : Byte) : Statement (.styAbs ll hh) := rfl
theorem tax : Statement .tax := rfl
theorem txa : Statement .txa := rfl
theorem tay : Statement .tay := rfl
theorem tya : Statement .tya := rfl
theorem tsx : Statement .tsx := rfl
theorem txs : Statement .txs := rfl
theorem pha : Statement .pha := rfl
theorem php : Statement .php := rfl
theorem pla : Statement .pla := rfl
theorem plp : Statement .plp := rfl
theorem adcImm (nn : Byte) : Statement (.adcImm nn) := rfl
theorem adcZp (zz : Byte) : Statement (.adcZp zz) := rfl
theorem adcZpX (zz : Byte) : Statement (.adcZpX zz) := rfl
theorem adcAbs (ll hh : Byte) : Statement (.adcAbs ll hh) := rfl
theorem adcAbsX (ll hh : Byte) : Statement (.adcAbsX ll hh) := rfl
theorem adcAbsY (ll hh : Byte) : Statement (.adcAbsY ll hh) := rfl
theorem adcIndX (zz : Byte) : Statement (.adcIndX zz) := rfl
theorem adcIndY (zz : Byte) : Statement (.adcIndY zz) := rfl
theorem sbcImm (nn : Byte) : Statement (.sbcImm nn) := rfl
theorem sbcZp (zz : Byte) : Statement (.sbcZp zz) := rfl
theorem sbcZpX (zz : Byte) : Statement (.sbcZpX zz) := rfl
theorem sbcAbs (ll hh : Byte) : Statement (.sbcAbs ll hh) := rfl
theorem sbcAbsX (ll hh : Byte) : Statement (.sbcAbsX ll hh) := rfl
theorem sbcAbsY (ll hh : Byte) : Statement (.sbcAbsY ll hh) := rfl
theorem sbcIndX (zz : Byte) : Statement (.sbcIndX zz) := rfl
theorem sbcIndY (zz : Byte) : Statement (.sbcIndY zz) := rfl
theorem incAcc : Statement .incAcc := rfl
theorem incZp (zz : Byte) : Statement (.incZp zz) := rfl
theorem incZpX (zz : Byte) : Statement (.incZpX zz) := rfl
theorem incAbs (ll hh : Byte) : Statement (.incAbs ll hh) := rfl
theorem incAbsX (ll hh : Byte) : Statement (.incAbsX ll hh) := rfl
theorem decAcc : Statement .decAcc := rfl
theorem decZp (zz : Byte) : Statement (.decZp zz) := rfl
theorem decZpX (zz : Byte) : Statement (.decZpX zz) := rfl
theorem decAbs (ll hh : Byte) : Statement (.decAbs ll hh) := rfl
theorem decAbsX (ll hh : Byte) : Statement (.decAbsX ll hh) := rfl
theorem inx : Statement .inx := rfl
theorem dex : Statement .dex := rfl
theorem iny : Statement .iny := rfl
theorem dey : Statement .dey := rfl
theorem mulZpX (zz : Byte) : Statement (.mulZpX zz) := rfl
theorem divZpX (zz : Byte) : Statement (.divZpX zz) := rfl
theorem andImm (nn : Byte) : Statement (.andImm nn) := rfl
theorem andZp (zz : Byte) : Statement (.andZp zz) := rfl
theorem andZpX (zz : Byte) : Statement (.andZpX zz) := rfl
theorem andAbs (ll hh : Byte) : Statement (.andAbs ll hh) := rfl
theorem andAbsX (ll hh : Byte) : Statement (.andAbsX ll hh) := rfl
theorem andAbsY (ll hh : Byte) : Statement (.andAbsY ll hh) := rfl
theorem andIndX (zz : Byte) : Statement (.andIndX zz) := rfl
theorem andIndY (zz : Byte) : Statement (.andIndY zz) := rfl
theorem oraImm (nn : Byte) : Statement (.oraImm nn) := rfl
theorem oraZp (zz : Byte) : Statement (.oraZp zz) := rfl
theorem oraZpX (zz : Byte) : Statement (.oraZpX zz) := rfl
theorem oraAbs (ll hh : Byte) : Statement (.oraAbs ll hh) := rfl
theorem oraAbsX (ll hh : Byte) : Statement (.oraAbsX ll hh) := rfl
theorem oraAbsY (ll hh : Byte) : Statement (.oraAbsY ll hh) := rfl
theorem oraIndX (zz : Byte) : Statement (.oraIndX zz) := rfl
theorem oraIndY (zz : Byte) : Statement (.oraIndY zz) := rfl
theorem eorImm (nn : Byte) : Statement (.eorImm nn) := rfl
theorem eorZp (zz : Byte) : Statement (.eorZp zz) := rfl
theorem eorZpX (zz : Byte) : Statement (.eorZpX zz) := rfl
theorem eorAbs (ll hh : Byte) : Statement (.eorAbs ll hh) := rfl
theorem eorAbsX (ll hh : Byte) : Statement (.eorAbsX ll hh) := rfl
theorem eorAbsY (ll hh : Byte) : Statement (.eorAbsY ll hh) := rfl
theorem eorIndX (zz : Byte) : Statement (.eorIndX zz) := rfl
theorem eorIndY (zz : Byte) : Statement (.eorIndY zz) := rfl
theorem comZp (zz : Byte) : Statement (.comZp zz) := rfl
theorem bitZp (zz : Byte) : Statement (.bitZp zz) := rfl
theorem bitAbs (ll hh : Byte) : Statement (.bitAbs ll hh) := rfl
theorem tstZp (zz : Byte) : Statement (.tstZp zz) := rfl
theorem cmpImm (nn : Byte) : Statement (.cmpImm nn) := rfl
theorem cmpZp (zz : Byte) : Statement (.cmpZp zz) := rfl
theorem cmpZpX (zz : Byte) : Statement (.cmpZpX zz) := rfl
theorem cmpAbs (ll hh : Byte) : Statement (.cmpAbs ll hh) := rfl
theorem cmpAbsX (ll hh : Byte) : Statement (.cmpAbsX ll hh) := rfl
theorem cmpAbsY (ll hh : Byte) : Statement (.cmpAbsY ll hh) := rfl
theorem cmpIndX (zz : Byte) : Statement (.cmpIndX zz) := rfl
theorem cmpIndY (zz : Byte) : Statement (.cmpIndY zz) := rfl
theorem cpxImm (nn : Byte) : Statement (.cpxImm nn) := rfl
theorem cpxZp (zz : Byte) : Statement (.cpxZp zz) := rfl
theorem cpxAbs (ll hh : Byte) : Statement (.cpxAbs ll hh) := rfl
theorem cpyImm (nn : Byte) : Statement (.cpyImm nn) := rfl
theorem cpyZp (zz : Byte) : Statement (.cpyZp zz) := rfl
theorem cpyAbs (ll hh : Byte) : Statement (.cpyAbs ll hh) := rfl
theorem aslAcc : Statement .aslAcc := rfl
theorem aslZp (zz : Byte) : Statement (.aslZp zz) := rfl
theorem aslZpX (zz : Byte) : Statement (.aslZpX zz) := rfl
theorem aslAbs (ll hh : Byte) : Statement (.aslAbs ll hh) := rfl
theorem aslAbsX (ll hh : Byte) : Statement (.aslAbsX ll hh) := rfl
theorem lsrAcc : Statement .lsrAcc := rfl
theorem lsrZp (zz : Byte) : Statement (.lsrZp zz) := rfl
theorem lsrZpX (zz : Byte) : Statement (.lsrZpX zz) := rfl
theorem lsrAbs (ll hh : Byte) : Statement (.lsrAbs ll hh) := rfl
theorem lsrAbsX (ll hh : Byte) : Statement (.lsrAbsX ll hh) := rfl
theorem rolAcc : Statement .rolAcc := rfl
theorem rolZp (zz : Byte) : Statement (.rolZp zz) := rfl
theorem rolZpX (zz : Byte) : Statement (.rolZpX zz) := rfl
theorem rolAbs (ll hh : Byte) : Statement (.rolAbs ll hh) := rfl
theorem rolAbsX (ll hh : Byte) : Statement (.rolAbsX ll hh) := rfl
theorem rorAcc : Statement .rorAcc := rfl
theorem rorZp (zz : Byte) : Statement (.rorZp zz) := rfl
theorem rorZpX (zz : Byte) : Statement (.rorZpX zz) := rfl
theorem rorAbs (ll hh : Byte) : Statement (.rorAbs ll hh) := rfl
theorem rorAbsX (ll hh : Byte) : Statement (.rorAbsX ll hh) := rfl
theorem rrfZp (zz : Byte) : Statement (.rrfZp zz) := rfl
theorem clbZp (i : Nat) (zz : Byte) : Statement (.clbZp i zz) := rfl
theorem clbAcc (i : Nat) : Statement (.clbAcc i) := rfl
theorem sebZp (i : Nat) (zz : Byte) : Statement (.sebZp i zz) := rfl
theorem sebAcc (i : Nat) : Statement (.sebAcc i) := rfl
theorem clc : Statement .clc := rfl
theorem sec : Statement .sec := rfl
theorem cld : Statement .cld := rfl
theorem sed : Statement .sed := rfl
theorem cli : Statement .cli := rfl
theorem sei : Statement .sei := rfl
theorem clt : Statement .clt := rfl
theorem set : Statement .set := rfl
theorem clv : Statement .clv := rfl
theorem jmpAbs (ll hh : Byte) : Statement (.jmpAbs ll hh) := rfl
theorem jmpInd (ll hh : Byte) : Statement (.jmpInd ll hh) := rfl
theorem jmpZpInd (zz : Byte) : Statement (.jmpZpInd zz) := rfl
theorem bra (rr : Byte) : Statement (.bra rr) := rfl
theorem jsrAbs (ll hh : Byte) : Statement (.jsrAbs ll hh) := rfl
theorem jsrZpInd (zz : Byte) : Statement (.jsrZpInd zz) := rfl
theorem jsrSpecial (ll : Byte) : Statement (.jsrSpecial ll) := rfl
theorem bbcAcc (i : Nat) (rr : Byte) : Statement (.bbcAcc i rr) := rfl
theorem bbcZp (i : Nat) (zz rr : Byte) : Statement (.bbcZp i zz rr) := rfl
theorem bbsAcc (i : Nat) (rr : Byte) : Statement (.bbsAcc i rr) := rfl
theorem bbsZp (i : Nat) (zz rr : Byte) : Statement (.bbsZp i zz rr) := rfl
theorem bcc (rr : Byte) : Statement (.bcc rr) := rfl
theorem bcs (rr : Byte) : Statement (.bcs rr) := rfl
theorem bne (rr : Byte) : Statement (.bne rr) := rfl
theorem beq (rr : Byte) : Statement (.beq rr) := rfl
theorem bpl (rr : Byte) : Statement (.bpl rr) := rfl
theorem bmi (rr : Byte) : Statement (.bmi rr) := rfl
theorem bvc (rr : Byte) : Statement (.bvc rr) := rfl
theorem bvs (rr : Byte) : Statement (.bvs rr) := rfl
theorem rts : Statement .rts := rfl
theorem rti : Statement .rti := rfl
theorem brk : Statement .brk := rfl
theorem wit : Statement .wit := rfl
theorem stp : Statement .stp := rfl
theorem nop : Statement .nop := rfl

end Sys2Proof.Laws.Format
end

