-- ==== Sys2Proof/Laws/Step.lean ====
section
/-! SUPPORT. What an instruction boundary can do to a state, field by field, and the four things a step with a next state
can be. Later proofs take a step apart with `step_cases` and do not unfold it. -/

namespace Sys2Proof.Machine

open Sys2Proof Sys2Proof.Config

/-! ### The requests of a boundary -/

/-- A request at a boundary arrives: the source exists, and needs no clock if there is none (R302, R326). -/
def lands (s : State) (n : Nat) : Bool :=
  match s.cfg.sources[n]? with
  | some k => !(s.run == .stop && !k.external)
  | none => false

/-- A request at a boundary sets its bit, or nothing (R302, R326). -/
theorem State.request_eq (s : State) (n : Nat) : s.request n = if lands s n then s.raise n else s := by
  unfold State.request lands
  cases s.cfg.sources[n]? with
  | none => rfl
  | some k =>
    by_cases h : (s.run == RunState.stop && !k.external) = true
    · simp [h]
    · simp [h]

/-- The requests of a list change the memory and nothing else: those that arrive set their bits. -/
theorem State.foldl_request (ns : List Nat) (s : State) :
    ∃ m, ns.foldl State.request s = { s with mem := m } ∧ (s.mem.wf → m.wf) ∧
      ∀ (a : Addr) (j : Nat), j < 8 →
        (m.get a.toNat).getLsbD j =
          ((s.peek a).getLsbD j || ns.any fun n => lands s n && raisesBit s.cfg a j n) := by
  induction ns generalizing s with
  | nil => exact ⟨s.mem, rfl, id, fun a j _ => by simp [State.peek]⟩
  | cons n ns ih =>
    obtain ⟨q, hq⟩ := State.raise_eq s n
    obtain ⟨m, hm, hw, hb⟩ := ih (s.request n)
    rw [State.request_eq] at hm hw hb
    cases hl : lands s n
    · rw [hl] at hm hw hb
      refine ⟨m, ?_, hw, fun a j hj => ?_⟩
      · rw [List.foldl_cons, State.request_eq, hl, hm]
        rfl
      · rw [hb a j hj, List.any_cons, hl]
        simp
    · rw [hl] at hm hw hb
      refine ⟨m, ?_, fun h => hw (State.wf_raise s n h), fun a j hj => ?_⟩
      · rw [List.foldl_cons, State.request_eq, hl, hm, if_pos rfl, hq]
      · rw [hb a j hj, if_pos rfl, State.getLsbD_peek_raise s n a j hj, List.any_cons, hl, Bool.true_and,
          Bool.or_assoc, hq]
        rfl

/-- The arrival of a boundary's requests changes the memory, uses up the input and opens the bus, and nothing else
(R302). -/
theorem State.landed_eq (s : State) :
    ∃ m, s.landed = { s.popInput with mem := m } ∧ (s.mem.wf → m.wf) ∧
      ∀ (a : Addr) (j : Nat), j < 8 →
        (m.get a.toNat).getLsbD j =
          ((s.peek a).getLsbD j || s.input.requests.any fun n => lands s n && raisesBit s.cfg a j n) :=
  State.foldl_request s.input.requests s.popInput

/-- A bit of memory after a boundary's requests have arrived. -/
theorem State.getLsbD_peek_landed (s : State) (a : Addr) (j : Nat) (hj : j < 8) :
    (s.landed.peek a).getLsbD j =
      ((s.peek a).getLsbD j || s.input.requests.any fun n => lands s n && raisesBit s.cfg a j n) := by
  obtain ⟨m, hm, _, hb⟩ := State.landed_eq s
  rw [hm]
  exact hb a j hj

/-- The arrival of a boundary's requests keeps the memory's canonical form. -/
theorem State.wf_landed (s : State) (h : s.mem.wf) : s.landed.mem.wf := by
  obtain ⟨m, hm, hw, _⟩ := State.landed_eq s
  rw [hm]
  exact hw h

/-! ### `State.landed` -/

@[simp] theorem State.landed_a (s : State) : s.landed.a = s.a := by
  obtain ⟨m, hm, _⟩ := State.landed_eq s
  rw [hm]
  rfl
@[simp] theorem State.landed_x (s : State) : s.landed.x = s.x := by
  obtain ⟨m, hm, _⟩ := State.landed_eq s
  rw [hm]
  rfl
@[simp] theorem State.landed_y (s : State) : s.landed.y = s.y := by
  obtain ⟨m, hm, _⟩ := State.landed_eq s
  rw [hm]
  rfl
@[simp] theorem State.landed_sp (s : State) : s.landed.sp = s.sp := by
  obtain ⟨m, hm, _⟩ := State.landed_eq s
  rw [hm]
  rfl
@[simp] theorem State.landed_ps (s : State) : s.landed.ps = s.ps := by
  obtain ⟨m, hm, _⟩ := State.landed_eq s
  rw [hm]
  rfl
@[simp] theorem State.landed_pc (s : State) : s.landed.pc = s.pc := by
  obtain ⟨m, hm, _⟩ := State.landed_eq s
  rw [hm]
  rfl
@[simp] theorem State.landed_run (s : State) : s.landed.run = s.run := by
  obtain ⟨m, hm, _⟩ := State.landed_eq s
  rw [hm]
  rfl
@[simp] theorem State.landed_prev (s : State) : s.landed.prev = s.prev := by
  obtain ⟨m, hm, _⟩ := State.landed_eq s
  rw [hm]
  rfl
@[simp] theorem State.landed_cfg (s : State) : s.landed.cfg = s.cfg := by
  obtain ⟨m, hm, _⟩ := State.landed_eq s
  rw [hm]
  rfl
@[simp] theorem State.landed_draws (s : State) : s.landed.draws = s.draws := by
  obtain ⟨m, hm, _⟩ := State.landed_eq s
  rw [hm]
  rfl
@[simp] theorem State.landed_bus (s : State) : s.landed.bus = { arrivals := s.input.during } := by
  obtain ⟨m, hm, _⟩ := State.landed_eq s
  rw [hm]
  rfl
@[simp] theorem State.landed_inputs (s : State) : s.landed.inputs = s.inputs.tail := by
  obtain ⟨m, hm, _⟩ := State.landed_eq s
  rw [hm]
  rfl
@[simp] theorem State.landed_flag (s : State) (fl : Flag) : s.landed.flag fl = s.flag fl := by simp [State.flag]

/-- Where no request comes, the boundary only uses up its input. -/
theorem State.landed_of_no_request (s : State) (h : s.input.requests = []) : s.landed = s.popInput := by
  unfold State.landed
  rw [h]
  rfl

/-! ### `State.accept` -/

/-- The acceptance of a source enters its interrupt, lands what arrived meanwhile, and clears the history. -/
theorem State.accept_eq (s : State) (k : IntSource) :
    s.accept k = { (s.enterInterrupt k).settle with prev := Prev.other, draws := s.draws + 1 } := by
  unfold State.accept State.tick
  simp [State.enterInterrupt_eq]

@[simp] theorem State.accept_mem (s : State) (k : IntSource) : (s.accept k).mem = (s.enterInterrupt k).settle.mem := by
  rw [State.accept_eq]
@[simp] theorem State.accept_peek (s : State) (k : IntSource) (q : Addr) :
    (s.accept k).peek q = (s.enterInterrupt k).settle.peek q := by rw [State.accept_eq]; rfl
@[simp] theorem State.accept_a (s : State) (k : IntSource) : (s.accept k).a = s.a := by
  rw [State.accept_eq]
  simp [State.enterInterrupt_eq]
@[simp] theorem State.accept_x (s : State) (k : IntSource) : (s.accept k).x = s.x := by
  rw [State.accept_eq]
  simp [State.enterInterrupt_eq]
@[simp] theorem State.accept_y (s : State) (k : IntSource) : (s.accept k).y = s.y := by
  rw [State.accept_eq]
  simp [State.enterInterrupt_eq]
@[simp] theorem State.accept_cfg (s : State) (k : IntSource) : (s.accept k).cfg = s.cfg := by
  rw [State.accept_eq]
  simp [State.enterInterrupt_eq]
@[simp] theorem State.accept_inputs (s : State) (k : IntSource) : (s.accept k).inputs = s.inputs := by
  rw [State.accept_eq]
  simp [State.enterInterrupt_eq]
@[simp] theorem State.accept_run (s : State) (k : IntSource) : (s.accept k).run = .running := by
  rw [State.accept_eq]
  simp [State.enterInterrupt_eq]
@[simp] theorem State.accept_prev (s : State) (k : IntSource) : (s.accept k).prev = Prev.other := by rw [State.accept_eq]
@[simp] theorem State.accept_bus (s : State) (k : IntSource) : (s.accept k).bus = {} := by rw [State.accept_eq]; rfl
@[simp] theorem State.accept_draws (s : State) (k : IntSource) : (s.accept k).draws = s.draws + 1 := by
  rw [State.accept_eq]

/-! ### `State.standby` -/

@[simp] theorem State.standby_a (s t : State) : (s.standby t).a = t.a := rfl
@[simp] theorem State.standby_x (s t : State) : (s.standby t).x = t.x := rfl
@[simp] theorem State.standby_y (s t : State) : (s.standby t).y = t.y := rfl
@[simp] theorem State.standby_sp (s t : State) : (s.standby t).sp = t.sp := rfl
@[simp] theorem State.standby_ps (s t : State) : (s.standby t).ps = t.ps := rfl
@[simp] theorem State.standby_pc (s t : State) : (s.standby t).pc = t.pc := rfl
@[simp] theorem State.standby_mem (s t : State) : (s.standby t).mem = t.mem := rfl
@[simp] theorem State.standby_prev (s t : State) : (s.standby t).prev = t.prev := rfl
@[simp] theorem State.standby_cfg (s t : State) : (s.standby t).cfg = t.cfg := rfl
@[simp] theorem State.standby_inputs (s t : State) : (s.standby t).inputs = t.inputs := rfl
@[simp] theorem State.standby_bus (s t : State) : (s.standby t).bus = {} := rfl
@[simp] theorem State.standby_draws (s t : State) : (s.standby t).draws = t.draws + 1 := rfl

/-! ### A step -/

/-- What a step with a next state can be: a reset, the acceptance of a source, a boundary of a standby state, or an
instruction (R321). -/
theorem step_cases {s t : State} (h : step s = .next t) :
    (∃ d, s.input.reset = some d ∧ t = s.popInput.resetWith d) ∨
    (∃ k, s.input.reset = none ∧ s.landed.accepted s.input = some k ∧ t = s.landed.accept k) ∨
    (s.input.reset = none ∧ s.landed.accepted s.input = none ∧ s.run ≠ .running ∧ t = s.standby s.landed) ∨
    (s.input.reset = none ∧ s.landed.accepted s.input = none ∧ s.run = .running ∧
      ∃ i u, s.landed.fetch = .ok i ∧ hazard i s.landed = none ∧ exec i s.landed = .next u ∧
        t = s.landed.retire i u) := by
  unfold step at h
  split at h
  · next d hd =>
    cases h
    exact .inl ⟨d, hd, rfl⟩
  · next hn =>
    unfold State.live at h
    split at h
    · next k hk =>
      cases h
      exact .inr (.inl ⟨k, hn, hk, rfl⟩)
    · next hk =>
      refine .inr (.inr ?_)
      have hrun := State.landed_run s
      split at h
      · next hr =>
        right
        refine ⟨hn, hk, hrun ▸ hr, ?_⟩
        unfold State.runInstr at h
        split at h
        · cases h
        · next i hi =>
          split at h
          · cases h
          · next hz =>
            split at h
            · next u hu =>
              cases h
              exact ⟨i, u, hi, hz, hu, rfl⟩
            · cases h
            · cases h
      · next hr =>
        cases h
        left
        exact ⟨hn, hk, by rw [← hrun, hr]; simp, rfl⟩
      · next hr =>
        cases h
        left
        exact ⟨hn, hk, by rw [← hrun, hr]; simp, rfl⟩

end Sys2Proof.Machine
end

