-- ==== Sys2Proof/Tests/Slice0.lean ====
section
/-! SUPPORT. Our own tests, each a named theorem: ill-formed terms, decoding of words written from the map of R95, single
steps on small states with the results of the spec's own vectors (`95_test_vectors.md`), and for every obligation with
hypotheses a concrete state and operands that meet them. Each checks this work and is no statement for the provers. -/

set_option maxRecDepth 4000

namespace Sys2Proof.Tests

open Sys2Proof Sys2Proof.Config Sys2Proof.Machine

/-! ## Helpers -/

/-- The default start state of `95_test_vectors.md`: `S = 0xFF`, PC = 0x1000, `PS.I = 1`, all else zero. -/
def base : State := { State.reset with sp := 0xFF, pc := 0x1000 }

/-- The reference product with the stack in page `0x01`. -/
def page1 : Product := { referenceProduct with stackPage := .fixed true }

/-- An outcome is a next state that passes a check. -/
def holds (r : Result) (p : State → Bool) : Bool :=
  match r with
  | .next t => p t
  | .fault _ => false
  | .refused _ => false

/-- One step from a state takes the instruction's cycles and gives a next state that passes a check. -/
def after (s : State) (c : Nat) (p : State → Bool) : Bool :=
  (match s.fetch with
    | .ok i => cycles i s == c
    | .error _ => false) && holds (step s) p

/-- Two steps from a state give a next state that passes a check. -/
def after2 (s : State) (p : State → Bool) : Bool := holds (step s) fun t => holds (step t) p

/-- An outcome is a refusal for a reason. -/
def refusesWith (r : Result) (why : Refusal) : Bool :=
  match r with
  | .next _ => false
  | .fault _ => false
  | .refused w => w == why

/-- The second of two steps from a state is refused for a reason. -/
def refuses2 (s : State) (why : Refusal) : Bool := holds (step s) fun t => refusesWith (step t) why

/-- Every listed word decodes to the instruction beside it. -/
def decodesAll (l : List (List Byte × Instr)) : Bool :=
  l.all fun w => match decodeBytes w.1 with
    | .ok (i, rest) => i == w.2 && rest == []
    | .error _ => false

/-! ## WellFormed: an ill-formed term for each check, and a well-formed one -/

theorem test_wf_clbZp : (Instr.clbZp 8 0x44).wellFormed = false := by decide
theorem test_wf_clbAcc : (Instr.clbAcc 8).wellFormed = false := by decide
theorem test_wf_sebZp : (Instr.sebZp 8 0x44).wellFormed = false := by decide
theorem test_wf_sebAcc : (Instr.sebAcc 9).wellFormed = false := by decide
theorem test_wf_bbcAcc : (Instr.bbcAcc 8 0xF2).wellFormed = false := by decide
theorem test_wf_bbcZp : (Instr.bbcZp 255 0x04 0xF1).wellFormed = false := by decide
theorem test_wf_bbsAcc : (Instr.bbsAcc 8 0x10).wellFormed = false := by decide
theorem test_wf_bbsZp : (Instr.bbsZp 8 0x10 0x05).wellFormed = false := by decide
theorem test_wf_highest_bit : (Instr.bbsZp 7 0x10 0x05).wellFormed = true := by decide

/-! ## Decoding: the words of the map of R95, row by row, every constructor among them -/

theorem test_decode_row_0 : decodesAll [
    ([0x00], .brk), ([0x01, 0x12], .oraIndX 0x12), ([0x02, 0x12], .jsrZpInd 0x12), ([0x03, 0x12], .bbsAcc 0 0x12),
    ([0x05, 0x12], .oraZp 0x12), ([0x06, 0x12], .aslZp 0x12), ([0x07, 0x12, 0x34], .bbsZp 0 0x12 0x34),
    ([0x08], .php), ([0x09, 0x12], .oraImm 0x12), ([0x0A], .aslAcc), ([0x0B], .sebAcc 0),
    ([0x0D, 0x12, 0x34], .oraAbs 0x12 0x34), ([0x0E, 0x12, 0x34], .aslAbs 0x12 0x34), ([0x0F, 0x12], .sebZp 0 0x12)] =
      true := by decide

theorem test_decode_row_1 : decodesAll [
    ([0x10, 0x12], .bpl 0x12), ([0x11, 0x12], .oraIndY 0x12), ([0x12], .clt), ([0x13, 0x12], .bbcAcc 0 0x12),
    ([0x15, 0x12], .oraZpX 0x12), ([0x16, 0x12], .aslZpX 0x12), ([0x17, 0x12, 0x34], .bbcZp 0 0x12 0x34),
    ([0x18], .clc), ([0x19, 0x12, 0x34], .oraAbsY 0x12 0x34), ([0x1A], .decAcc), ([0x1B], .clbAcc 0),
    ([0x1D, 0x12, 0x34], .oraAbsX 0x12 0x34), ([0x1E, 0x12, 0x34], .aslAbsX 0x12 0x34),
    ([0x1F, 0x12], .clbZp 0 0x12)] = true := by decide

theorem test_decode_row_2 : decodesAll [
    ([0x20, 0x12, 0x34], .jsrAbs 0x12 0x34), ([0x21, 0x12], .andIndX 0x12), ([0x22, 0x12], .jsrSpecial 0x12),
    ([0x23, 0x12], .bbsAcc 1 0x12), ([0x24, 0x12], .bitZp 0x12), ([0x25, 0x12], .andZp 0x12),
    ([0x26, 0x12], .rolZp 0x12), ([0x27, 0x12, 0x34], .bbsZp 1 0x12 0x34), ([0x28], .plp),
    ([0x29, 0x12], .andImm 0x12), ([0x2A], .rolAcc), ([0x2B], .sebAcc 1), ([0x2C, 0x12, 0x34], .bitAbs 0x12 0x34),
    ([0x2D, 0x12, 0x34], .andAbs 0x12 0x34), ([0x2E, 0x12, 0x34], .rolAbs 0x12 0x34), ([0x2F, 0x12], .sebZp 1 0x12)] =
      true := by decide

theorem test_decode_row_3 : decodesAll [
    ([0x30, 0x12], .bmi 0x12), ([0x31, 0x12], .andIndY 0x12), ([0x32], .set), ([0x33, 0x12], .bbcAcc 1 0x12),
    ([0x35, 0x12], .andZpX 0x12), ([0x36, 0x12], .rolZpX 0x12), ([0x37, 0x12, 0x34], .bbcZp 1 0x12 0x34),
    ([0x38], .sec), ([0x39, 0x12, 0x34], .andAbsY 0x12 0x34), ([0x3A], .incAcc), ([0x3B], .clbAcc 1),
    ([0x3C, 0x12, 0x34], .ldmZp 0x12 0x34), ([0x3D, 0x12, 0x34], .andAbsX 0x12 0x34),
    ([0x3E, 0x12, 0x34], .rolAbsX 0x12 0x34), ([0x3F, 0x12], .clbZp 1 0x12)] = true := by decide

theorem test_decode_row_4 : decodesAll [
    ([0x40], .rti), ([0x41, 0x12], .eorIndX 0x12), ([0x42], .stp), ([0x43, 0x12], .bbsAcc 2 0x12),
    ([0x44, 0x12], .comZp 0x12), ([0x45, 0x12], .eorZp 0x12), ([0x46, 0x12], .lsrZp 0x12),
    ([0x47, 0x12, 0x34], .bbsZp 2 0x12 0x34), ([0x48], .pha), ([0x49, 0x12], .eorImm 0x12), ([0x4A], .lsrAcc),
    ([0x4B], .sebAcc 2), ([0x4C, 0x12, 0x34], .jmpAbs 0x12 0x34), ([0x4D, 0x12, 0x34], .eorAbs 0x12 0x34),
    ([0x4E, 0x12, 0x34], .lsrAbs 0x12 0x34), ([0x4F, 0x12], .sebZp 2 0x12)] = true := by decide

theorem test_decode_row_5 : decodesAll [
    ([0x50, 0x12], .bvc 0x12), ([0x51, 0x12], .eorIndY 0x12), ([0x53, 0x12], .bbcAcc 2 0x12),
    ([0x55, 0x12], .eorZpX 0x12), ([0x56, 0x12], .lsrZpX 0x12), ([0x57, 0x12, 0x34], .bbcZp 2 0x12 0x34),
    ([0x58], .cli), ([0x59, 0x12, 0x34], .eorAbsY 0x12 0x34), ([0x5B], .clbAcc 2),
    ([0x5D, 0x12, 0x34], .eorAbsX 0x12 0x34), ([0x5E, 0x12, 0x34], .lsrAbsX 0x12 0x34),
    ([0x5F, 0x12], .clbZp 2 0x12)] = true := by decide

theorem test_decode_row_6 : decodesAll [
    ([0x60], .rts), ([0x61, 0x12], .adcIndX 0x12), ([0x62, 0x12], .mulZpX 0x12), ([0x63, 0x12], .bbsAcc 3 0x12),
    ([0x64, 0x12], .tstZp 0x12), ([0x65, 0x12], .adcZp 0x12), ([0x66, 0x12], .rorZp 0x12),
    ([0x67, 0x12, 0x34], .bbsZp 3 0x12 0x34), ([0x68], .pla), ([0x69, 0x12], .adcImm 0x12), ([0x6A], .rorAcc),
    ([0x6B], .sebAcc 3), ([0x6C, 0x12, 0x34], .jmpInd 0x12 0x34), ([0x6D, 0x12, 0x34], .adcAbs 0x12 0x34),
    ([0x6E, 0x12, 0x34], .rorAbs 0x12 0x34), ([0x6F, 0x12], .sebZp 3 0x12)] = true := by decide

theorem test_decode_row_7 : decodesAll [
    ([0x70, 0x12], .bvs 0x12), ([0x71, 0x12], .adcIndY 0x12), ([0x73, 0x12], .bbcAcc 3 0x12),
    ([0x75, 0x12], .adcZpX 0x12), ([0x76, 0x12], .rorZpX 0x12), ([0x77, 0x12, 0x34], .bbcZp 3 0x12 0x34),
    ([0x78], .sei), ([0x79, 0x12, 0x34], .adcAbsY 0x12 0x34), ([0x7B], .clbAcc 3),
    ([0x7D, 0x12, 0x34], .adcAbsX 0x12 0x34), ([0x7E, 0x12, 0x34], .rorAbsX 0x12 0x34),
    ([0x7F, 0x12], .clbZp 3 0x12)] = true := by decide

theorem test_decode_row_8 : decodesAll [
    ([0x80, 0x12], .bra 0x12), ([0x81, 0x12], .staIndX 0x12), ([0x82, 0x12], .rrfZp 0x12),
    ([0x83, 0x12], .bbsAcc 4 0x12), ([0x84, 0x12], .styZp 0x12), ([0x85, 0x12], .staZp 0x12),
    ([0x86, 0x12], .stxZp 0x12), ([0x87, 0x12, 0x34], .bbsZp 4 0x12 0x34), ([0x88], .dey), ([0x8A], .txa),
    ([0x8B], .sebAcc 4), ([0x8C, 0x12, 0x34], .styAbs 0x12 0x34), ([0x8D, 0x12, 0x34], .staAbs 0x12 0x34),
    ([0x8E, 0x12, 0x34], .stxAbs 0x12 0x34), ([0x8F, 0x12], .sebZp 4 0x12)] = true := by decide

theorem test_decode_row_9 : decodesAll [
    ([0x90, 0x12], .bcc 0x12), ([0x91, 0x12], .staIndY 0x12), ([0x93, 0x12], .bbcAcc 4 0x12),
    ([0x94, 0x12], .styZpX 0x12), ([0x95, 0x12], .staZpX 0x12), ([0x96, 0x12], .stxZpY 0x12),
    ([0x97, 0x12, 0x34], .bbcZp 4 0x12 0x34), ([0x98], .tya), ([0x99, 0x12, 0x34], .staAbsY 0x12 0x34),
    ([0x9A], .txs), ([0x9B], .clbAcc 4), ([0x9D, 0x12, 0x34], .staAbsX 0x12 0x34), ([0x9F, 0x12], .clbZp 4 0x12)] =
      true := by decide

theorem test_decode_row_A : decodesAll [
    ([0xA0, 0x12], .ldyImm 0x12), ([0xA1, 0x12], .ldaIndX 0x12), ([0xA2, 0x12], .ldxImm 0x12),
    ([0xA3, 0x12], .bbsAcc 5 0x12), ([0xA4, 0x12], .ldyZp 0x12), ([0xA5, 0x12], .ldaZp 0x12),
    ([0xA6, 0x12], .ldxZp 0x12), ([0xA7, 0x12, 0x34], .bbsZp 5 0x12 0x34), ([0xA8], .tay),
    ([0xA9, 0x12], .ldaImm 0x12), ([0xAA], .tax), ([0xAB], .sebAcc 5), ([0xAC, 0x12, 0x34], .ldyAbs 0x12 0x34),
    ([0xAD, 0x12, 0x34], .ldaAbs 0x12 0x34), ([0xAE, 0x12, 0x34], .ldxAbs 0x12 0x34), ([0xAF, 0x12], .sebZp 5 0x12)] =
      true := by decide

theorem test_decode_row_B : decodesAll [
    ([0xB0, 0x12], .bcs 0x12), ([0xB1, 0x12], .ldaIndY 0x12), ([0xB2, 0x12], .jmpZpInd 0x12),
    ([0xB3, 0x12], .bbcAcc 5 0x12), ([0xB4, 0x12], .ldyZpX 0x12), ([0xB5, 0x12], .ldaZpX 0x12),
    ([0xB6, 0x12], .ldxZpY 0x12), ([0xB7, 0x12, 0x34], .bbcZp 5 0x12 0x34), ([0xB8], .clv),
    ([0xB9, 0x12, 0x34], .ldaAbsY 0x12 0x34), ([0xBA], .tsx), ([0xBB], .clbAcc 5),
    ([0xBC, 0x12, 0x34], .ldyAbsX 0x12 0x34), ([0xBD, 0x12, 0x34], .ldaAbsX 0x12 0x34),
    ([0xBE, 0x12, 0x34], .ldxAbsY 0x12 0x34), ([0xBF, 0x12], .clbZp 5 0x12)] = true := by decide

theorem test_decode_row_C : decodesAll [
    ([0xC0, 0x12], .cpyImm 0x12), ([0xC1, 0x12], .cmpIndX 0x12), ([0xC2], .wit), ([0xC3, 0x12], .bbsAcc 6 0x12),
    ([0xC4, 0x12], .cpyZp 0x12), ([0xC5, 0x12], .cmpZp 0x12), ([0xC6, 0x12], .decZp 0x12),
    ([0xC7, 0x12, 0x34], .bbsZp 6 0x12 0x34), ([0xC8], .iny), ([0xC9, 0x12], .cmpImm 0x12), ([0xCA], .dex),
    ([0xCB], .sebAcc 6), ([0xCC, 0x12, 0x34], .cpyAbs 0x12 0x34), ([0xCD, 0x12, 0x34], .cmpAbs 0x12 0x34),
    ([0xCE, 0x12, 0x34], .decAbs 0x12 0x34), ([0xCF, 0x12], .sebZp 6 0x12)] = true := by decide

theorem test_decode_row_D : decodesAll [
    ([0xD0, 0x12], .bne 0x12), ([0xD1, 0x12], .cmpIndY 0x12), ([0xD3, 0x12], .bbcAcc 6 0x12),
    ([0xD5, 0x12], .cmpZpX 0x12), ([0xD6, 0x12], .decZpX 0x12), ([0xD7, 0x12, 0x34], .bbcZp 6 0x12 0x34),
    ([0xD8], .cld), ([0xD9, 0x12, 0x34], .cmpAbsY 0x12 0x34), ([0xDB], .clbAcc 6),
    ([0xDD, 0x12, 0x34], .cmpAbsX 0x12 0x34), ([0xDE, 0x12, 0x34], .decAbsX 0x12 0x34),
    ([0xDF, 0x12], .clbZp 6 0x12)] = true := by decide

theorem test_decode_row_E : decodesAll [
    ([0xE0, 0x12], .cpxImm 0x12), ([0xE1, 0x12], .sbcIndX 0x12), ([0xE2, 0x12], .divZpX 0x12),
    ([0xE3, 0x12], .bbsAcc 7 0x12), ([0xE4, 0x12], .cpxZp 0x12), ([0xE5, 0x12], .sbcZp 0x12),
    ([0xE6, 0x12], .incZp 0x12), ([0xE7, 0x12, 0x34], .bbsZp 7 0x12 0x34), ([0xE8], .inx),
    ([0xE9, 0x12], .sbcImm 0x12), ([0xEA], .nop), ([0xEB], .sebAcc 7), ([0xEC, 0x12, 0x34], .cpxAbs 0x12 0x34),
    ([0xED, 0x12, 0x34], .sbcAbs 0x12 0x34), ([0xEE, 0x12, 0x34], .incAbs 0x12 0x34), ([0xEF, 0x12], .sebZp 7 0x12)] =
      true := by decide

theorem test_decode_row_F : decodesAll [
    ([0xF0, 0x12], .beq 0x12), ([0xF1, 0x12], .sbcIndY 0x12), ([0xF3, 0x12], .bbcAcc 7 0x12),
    ([0xF5, 0x12], .sbcZpX 0x12), ([0xF6, 0x12], .incZpX 0x12), ([0xF7, 0x12, 0x34], .bbcZp 7 0x12 0x34),
    ([0xF8], .sed), ([0xF9, 0x12, 0x34], .sbcAbsY 0x12 0x34), ([0xFB], .clbAcc 7),
    ([0xFD, 0x12, 0x34], .sbcAbsX 0x12 0x34), ([0xFE, 0x12, 0x34], .incAbsX 0x12 0x34),
    ([0xFF, 0x12], .clbZp 7 0x12)] = true := by decide

/-- The 25 op-codes that the map marks as no instruction (R110). -/
theorem test_undefined_opcodes :
    (List.range 256).filter (fun n => (opShape (BitVec.ofNat 8 n)).isNone) =
      [0x04, 0x0C, 0x14, 0x1C, 0x34, 0x52, 0x54, 0x5A, 0x5C, 0x72, 0x74, 0x7A, 0x7C, 0x89, 0x92, 0x9C, 0x9E, 0xD2,
        0xD4, 0xDA, 0xDC, 0xF2, 0xF4, 0xFA, 0xFC] := by decide

theorem test_table_word_two_bytes : decodeTableWord 16 0xA569 = some (.adcImm 0xA5) := by decide
theorem test_table_word_operand_zero : decodeTableWord 8 0x6D = some (.adcAbs 0x00 0x00) := by decide
theorem test_table_word_undefined : decodeTableWord 8 0x04 = none := by decide
theorem test_fetch_word_runs :
    holds (step (State.reset.withFetchWord 16 0x80A9)) (fun t => t.a == 0x80 && t.ps == 0x84 && t.pc == 0x0002) = true := by
  decide
theorem test_encode_bit : encode (.bbcZp 5 0x04 0xF1) = [0xB7, 0x04, 0xF1] := by decide

/-! ## Single steps: the vectors of `95_test_vectors.md`, with their cycle numbers -/

/-- Vector: S1 Immediate, ADC #$A5. -/
theorem test_adc_imm :
    after { base with a := 0x10, ps := 0x5, mem := [(0x1000, 0x69), (0x1001, 0xA5)] } 2
      (fun t => t.a == 0xB6 && t.ps == 0x84 && t.pc == 0x1002) = true := by decide

/-- Vector: S2 Accumulator, ROL A. -/
theorem test_rol_acc :
    after { base with a := 0x81, mem := [(0x1000, 0x2A)] } 2
      (fun t => t.a == 0x02 && t.ps == 0x05 && t.pc == 0x1001) = true := by decide

/-- Vector: S3 Zero Page, ADC $40. -/
theorem test_adc_zp :
    after { base with a := 0x1, mem := [(0x0040, 0x22), (0x1000, 0x65), (0x1001, 0x40)] } 3
      (fun t => t.a == 0x23 && t.ps == 0x04 && t.pc == 0x1002) = true := by decide

/-- Vector: S4 Zero Page X, ADC $5E,X: operand at 0044, not 0144. -/
theorem test_adc_zp_x :
    after { base with a := 0x1, x := 0xE6, mem := [(0x0044, 0x22), (0x0144, 0x77), (0x1000, 0x75), (0x1001, 0x5E)] } 4
      (fun t => t.a == 0x23 && t.ps == 0x04 && t.pc == 0x1002) = true := by decide

/-- Vector: S5 Zero Page Y, LDX $62,Y. -/
theorem test_ldx_zp_y :
    after { base with y := 0x6, mem := [(0x0068, 0x9C), (0x1000, 0xB6), (0x1001, 0x62)] } 4
      (fun t => t.x == 0x9C && t.ps == 0x84 && t.pc == 0x1002) = true := by decide

/-- Vector: S6 Absolute, ADC $AD12. -/
theorem test_adc_abs :
    after { base with a := 0x1, mem := [(0x1000, 0x6D), (0x1001, 0x12), (0x1002, 0xAD), (0xAD12, 0x22)] } 4
      (fun t => t.a == 0x23 && t.ps == 0x04 && t.pc == 0x1003) = true := by decide

/-- Vector: S7 Absolute X, ADC $AD12,X: operand at AE00. -/
theorem test_adc_abs_x :
    after { base with a := 0x1, x := 0xEE, mem := [(0x1000, 0x7D), (0x1001, 0x12), (0x1002, 0xAD), (0xAE00, 0x22)] } 5
      (fun t => t.a == 0x23 && t.ps == 0x04 && t.pc == 0x1003) = true := by decide

/-- Vector: S8 Absolute Y, ADC $AD12,Y. -/
theorem test_adc_abs_y :
    after { base with a := 0x1, y := 0xEE, mem := [(0x1000, 0x79), (0x1001, 0x12), (0x1002, 0xAD), (0xAE00, 0x22)] } 5
      (fun t => t.a == 0x23 && t.ps == 0x04 && t.pc == 0x1003) = true := by decide

/-- Vector: S9 Implied, CLC. -/
theorem test_clc :
    after { base with ps := 0x5, mem := [(0x1000, 0x18)] } 2
      (fun t => t.ps == 0x04 && t.pc == 0x1001) = true := by decide

/-- Vector: S10 Relative, BCC *–12, C = 0: to 1000 − 12 = 0FF4. -/
theorem test_bcc :
    after { base with mem := [(0x1000, 0x90), (0x1001, 0xF2)] } 4
      (fun t => t.ps == 0x04 && t.pc == 0x0FF4) = true := by decide

/-- Vector: S10 Relative, C = 1: to * + 2. -/
theorem test_bcc_again :
    after { base with ps := 0x5, mem := [(0x1000, 0x90), (0x1001, 0xF2)] } 2
      (fun t => t.ps == 0x05 && t.pc == 0x1002) = true := by decide

/-- Vector: S11 Indirect X, ADC ($1E,X): pointer at 0004/0005, operand at 1400. -/
theorem test_adc_ind_x :
    after { base with a := 0x1, x := 0xE6, mem := [(0x0005, 0x14), (0x1000, 0x61), (0x1001, 0x1E), (0x1400, 0x22)] } 6
      (fun t => t.a == 0x23 && t.ps == 0x04 && t.pc == 0x1002) = true := by decide

/-- Vector: S12 Indirect Y, ADC ($1E),Y: operand at 12E7. -/
theorem test_adc_ind_y :
    after { base with a := 0x1, y := 0xE6, mem := [(0x001E, 0x01), (0x001F, 0x12), (0x1000, 0x71), (0x1001, 0x1E),
        (0x12E7, 0x22)] } 6
      (fun t => t.a == 0x23 && t.ps == 0x04 && t.pc == 0x1002) = true := by decide

/-- Vector: S13 Indirect Absolute, JMP ($1400). -/
theorem test_jmp_ind :
    after { base with mem := [(0x1000, 0x6C), (0x1002, 0x14), (0x1400, 0xFF), (0x1401, 0x1E)] } 5
      (fun t => t.ps == 0x04 && t.pc == 0x1EFF) = true := by decide

/-- Vector: S14 Zero Page Indirect, JMP ($45). -/
theorem test_jmp_zp_ind :
    after { base with mem := [(0x0045, 0xFF), (0x0046, 0x1E), (0x1000, 0xB2), (0x1001, 0x45)] } 4
      (fun t => t.ps == 0x04 && t.pc == 0x1EFF) = true := by decide

/-- Vector: S15 Special Page, JSR \$FFC0: pushes 10, 01. -/
theorem test_jsr_special :
    after { base with mem := [(0x1000, 0x22), (0x1001, 0xC0)] } 5
      (fun t => t.sp == 0xFD && t.ps == 0x04 && t.pc == 0xFFC0 && t.peek 0x00FF == 0x10 &&
        t.peek 0x00FE == 0x01) = true := by decide

/-- Vector: S16 Zero Page Bit, CLB 5,$44. -/
theorem test_clb_zp :
    after { base with mem := [(0x0044, 0xFF), (0x1000, 0xBF), (0x1001, 0x44)] } 5
      (fun t => t.ps == 0x04 && t.pc == 0x1002 && t.peek 0x0044 == 0xDF) = true := by decide

/-- Vector: S17 Accumulator Bit, CLB 5,A. -/
theorem test_clb_acc :
    after { base with a := 0xFF, mem := [(0x1000, 0xBB)] } 2
      (fun t => t.a == 0xDF && t.ps == 0x04 && t.pc == 0x1001) = true := by decide

/-- Vector: S18 Accumulator Bit Relative, BBC 5,A,*–12, bit 5 = 0: taken. -/
theorem test_bbc_acc :
    after { base with a := 0xDF, mem := [(0x1000, 0xB3), (0x1001, 0xF2)] } 6
      (fun t => t.ps == 0x04 && t.pc == 0x0FF4) = true := by decide

/-- Vector: S18 bit 5 = 1: to * + 2. -/
theorem test_bbc_acc_again :
    after { base with a := 0x20, mem := [(0x1000, 0xB3), (0x1001, 0xF2)] } 4
      (fun t => t.ps == 0x04 && t.pc == 0x1002) = true := by decide

/-- Vector: S19 Zero Page Bit Relative, BBC 5,$04,*–12, bit 5 = 0: taken. -/
theorem test_bbc_zp :
    after { base with mem := [(0x0004, 0xDF), (0x1000, 0xB7), (0x1001, 0x04), (0x1002, 0xF1)] } 7
      (fun t => t.ps == 0x04 && t.pc == 0x0FF4) = true := by decide

/-- Vector: S19 bit 5 = 1: to * + 3. -/
theorem test_bbc_zp_again :
    after { base with mem := [(0x0004, 0x20), (0x1000, 0xB7), (0x1001, 0x04), (0x1002, 0xF1)] } 5
      (fun t => t.ps == 0x04 && t.pc == 0x1003) = true := by decide

/-- Vector: LDA #$00: Z set, N cleared. -/
theorem test_lda_imm :
    after { base with a := 0x55, ps := 0x84, mem := [(0x1000, 0xA9)] } 2
      (fun t => t.a == 0x00 && t.ps == 0x06 && t.pc == 0x1002) = true := by decide

/-- Vector: LDA #$80: N set, Z cleared. -/
theorem test_lda_imm_again :
    after { base with ps := 0x6, mem := [(0x1000, 0xA9), (0x1001, 0x80)] } 2
      (fun t => t.a == 0x80 && t.ps == 0x84 && t.pc == 0x1002) = true := by decide

/-- Vector: LDA $10 with T = 1: M(X) = [0020] receives the byte, A untouched, 3 + 2 cycles. -/
theorem test_lda_zp :
    after { base with a := 0x11, x := 0x20, ps := 0x24, mem := [(0x0010, 0x7E), (0x0020, 0xFF), (0x1000, 0xA5),
        (0x1001, 0x10)] } 5
      (fun t => t.ps == 0x24 && t.pc == 0x1002 && t.a == 0x11 && t.peek 0x0020 == 0x7E) = true := by decide

/-- Vector: LDA $F0,X: zero page wrap, reads 0010. -/
theorem test_lda_zp_x :
    after { base with x := 0x20, mem := [(0x0010, 0x33), (0x0110, 0x99), (0x1000, 0xB5), (0x1001, 0xF0)] } 4
      (fun t => t.a == 0x33 && t.ps == 0x04 && t.pc == 0x1002) = true := by decide

/-- Vector: LDA $FFFF,X: address wraps to 0001 (D4). -/
theorem test_lda_abs_x :
    after { base with x := 0x2, mem := [(0x0001, 0x44), (0x1000, 0xBD), (0x1001, 0xFF), (0x1002, 0xFF)] } 5
      (fun t => t.a == 0x44 && t.ps == 0x04 && t.pc == 0x1003) = true := by decide

/-- Vector: LDA ($FF),Y: pointer high byte from 0000 (D6), reads 3001. -/
theorem test_lda_ind_y :
    after { base with y := 0x1, mem := [(0x0000, 0x30), (0x0100, 0x77), (0x1000, 0xB1), (0x1001, 0xFF), (0x3001,
        0x66)] } 6
      (fun t => t.a == 0x66 && t.ps == 0x04 && t.pc == 0x1002) = true := by decide

/-- Vector: LDM #$A5,$30: immediate first, address second; no flags. -/
theorem test_ldm_zp :
    after { base with mem := [(0x0030, 0x11), (0x1000, 0x3C), (0x1001, 0xA5), (0x1002, 0x30)] } 4
      (fun t => t.ps == 0x04 && t.pc == 0x1003 && t.peek 0x0030 == 0xA5) = true := by decide

/-- Vector: LDX #$00. -/
theorem test_ldx_imm :
    after { base with x := 0x1, mem := [(0x1000, 0xA2)] } 2
      (fun t => t.x == 0x00 && t.ps == 0x06 && t.pc == 0x1002) = true := by decide

/-- Vector: LDX $2000,Y. -/
theorem test_ldx_abs_y :
    after { base with y := 0x5, mem := [(0x1000, 0xBE), (0x1002, 0x20), (0x2005, 0xF0)] } 5
      (fun t => t.x == 0xF0 && t.ps == 0x84 && t.pc == 0x1003) = true := by decide

/-- Vector: LDY #$7F. -/
theorem test_ldy_imm :
    after { base with ps := 0x84, mem := [(0x1000, 0xA0), (0x1001, 0x7F)] } 2
      (fun t => t.y == 0x7F && t.ps == 0x04 && t.pc == 0x1002) = true := by decide

/-- Vector: LDY $80,X: wraps to 0010. -/
theorem test_ldy_zp_x :
    after { base with x := 0x90, mem := [(0x0010, 0x01), (0x1000, 0xB4), (0x1001, 0x80)] } 4
      (fun t => t.y == 0x01 && t.ps == 0x04 && t.pc == 0x1002) = true := by decide

/-- Vector: STA $40: stores, Z not touched. -/
theorem test_sta_zp :
    after { base with mem := [(0x0040, 0xEE), (0x1000, 0x85), (0x1001, 0x40)] } 4
      (fun t => t.ps == 0x04 && t.pc == 0x1002 && t.peek 0x0040 == 0x00) = true := by decide

/-- Vector: STA $2000. -/
theorem test_sta_abs :
    after { base with a := 0x3C, mem := [(0x1000, 0x8D), (0x1002, 0x20)] } 5
      (fun t => t.ps == 0x04 && t.pc == 0x1003 && t.peek 0x2000 == 0x3C) = true := by decide

/-- Vector: STA ($20),Y: 3001 + FF = 3100. -/
theorem test_sta_ind_y :
    after { base with a := 0x5A, y := 0xFF, mem := [(0x0020, 0x01), (0x0021, 0x30), (0x1000, 0x91), (0x1001, 0x20)] } 7
      (fun t => t.ps == 0x04 && t.pc == 0x1002 && t.peek 0x3100 == 0x5A) = true := by decide

/-- Vector: STA ($20,X): pointer at 0024. -/
theorem test_sta_ind_x :
    after { base with a := 0x5A, x := 0x4, mem := [(0x0025, 0x40), (0x1000, 0x81), (0x1001, 0x20)] } 7
      (fun t => t.ps == 0x04 && t.pc == 0x1002 && t.peek 0x4000 == 0x5A) = true := by decide

/-- Vector: STA with T = 1: T does not affect stores, writes 0040. -/
theorem test_sta_zp_again :
    after { base with a := 0x5A, x := 0x60, ps := 0x24, mem := [(0x1000, 0x85), (0x1001, 0x40)] } 4
      (fun t => t.ps == 0x24 && t.pc == 0x1002 && t.a == 0x5A && t.peek 0x0040 == 0x5A) = true := by decide

/-- Vector: STX $FF,Y: wraps to 0001. -/
theorem test_stx_zp_y :
    after { base with x := 0x12, y := 0x2, mem := [(0x1000, 0x96), (0x1001, 0xFF)] } 5
      (fun t => t.ps == 0x04 && t.pc == 0x1002 && t.peek 0x0001 == 0x12) = true := by decide

/-- Vector: STY $1234: 5 cycles (C1). -/
theorem test_sty_abs :
    after { base with y := 0x77, mem := [(0x1000, 0x8C), (0x1001, 0x34), (0x1002, 0x12)] } 5
      (fun t => t.ps == 0x04 && t.pc == 0x1003 && t.peek 0x1234 == 0x77) = true := by decide

/-- Vector: TAX. -/
theorem test_tax :
    after { base with a := 0x80, mem := [(0x1000, 0xAA)] } 2
      (fun t => t.x == 0x80 && t.ps == 0x84 && t.pc == 0x1001) = true := by decide

/-- Vector: TXA: Z set. -/
theorem test_txa :
    after { base with a := 0x1, mem := [(0x1000, 0x8A)] } 2
      (fun t => t.a == 0x00 && t.ps == 0x06 && t.pc == 0x1001) = true := by decide

/-- Vector: TAY. -/
theorem test_tay :
    after { base with a := 0x1, ps := 0x86, mem := [(0x1000, 0xA8)] } 2
      (fun t => t.y == 0x01 && t.ps == 0x04 && t.pc == 0x1001) = true := by decide

/-- Vector: TYA. -/
theorem test_tya :
    after { base with y := 0xFF, mem := [(0x1000, 0x98)] } 2
      (fun t => t.a == 0xFF && t.ps == 0x84 && t.pc == 0x1001) = true := by decide

/-- Vector: TSX: N set from S. -/
theorem test_tsx :
    after { base with mem := [(0x1000, 0xBA)] } 2
      (fun t => t.x == 0xFF && t.ps == 0x84 && t.pc == 0x1001) = true := by decide

/-- Vector: TXS: no flags although the value is 0. -/
theorem test_txs :
    after { base with mem := [(0x1000, 0x9A)] } 2
      (fun t => t.sp == 0x00 && t.ps == 0x04 && t.pc == 0x1001) = true := by decide

/-- Vector: PHA. -/
theorem test_pha :
    after { base with a := 0xAB, mem := [(0x1000, 0x48)] } 3
      (fun t => t.sp == 0xFE && t.ps == 0x04 && t.pc == 0x1001 && t.peek 0x00FF == 0xAB) = true := by decide

/-- Vector: PHA at S = 00 with STACK_PAGE = 0x01: writes 0100, S wraps to FF (D5). -/
theorem test_pha_again :
    after { base with a := 0xAB, sp := 0x0, mem := [(0x1000, 0x48)], cfg := page1 } 3
      (fun t => t.sp == 0xFF && t.ps == 0x04 && t.pc == 0x1001 && t.peek 0x0100 == 0xAB) = true := by decide

/-- Vector: PHP: pushes all eight bits. -/
theorem test_php :
    after { base with sp := 0x80, ps := 0xFF, mem := [(0x1000, 0x08)] } 3
      (fun t => t.sp == 0x7F && t.ps == 0xFF && t.pc == 0x1001 && t.peek 0x0080 == 0xFF) = true := by decide

/-- Vector: PLA: Z set. -/
theorem test_pla :
    after { base with a := 0x55, sp := 0xFE, mem := [(0x1000, 0x68)] } 4
      (fun t => t.a == 0x00 && t.sp == 0xFF && t.ps == 0x06 && t.pc == 0x1001) = true := by decide

/-- Vector: PLA at S = FF: S wraps to 00, reads 0000. -/
theorem test_pla_again :
    after { base with mem := [(0x0000, 0x80), (0x1000, 0x68)] } 4
      (fun t => t.a == 0x80 && t.sp == 0x00 && t.ps == 0x84 && t.pc == 0x1001) = true := by decide

/-- Vector: PLP, NOP: every bit from the stack incl. B and T; NOP obligatory. -/
theorem test_plp :
    after2 { base with sp := 0xFE, mem := [(0x00FF, 0xFB), (0x1000, 0x28), (0x1001, 0xEA)] }
      (fun t => t.sp == 0xFF && t.ps == 0xFB && t.pc == 0x1002) = true := by decide

/-- Vector: ADC: 80 + 80: C, V, Z. -/
theorem test_adc_imm_again :
    after { base with a := 0x80, mem := [(0x1000, 0x69), (0x1001, 0x80)] } 2
      (fun t => t.a == 0x00 && t.ps == 0x47 && t.pc == 0x1002) = true := by decide

/-- Vector: ADC $10 with T = 1: [0020] = 03 + 05 + 1, A untouched, 3 + 3 cycles. -/
theorem test_adc_zp_again :
    after { base with a := 0x99, x := 0x20, ps := 0x25, mem := [(0x0010, 0x05), (0x0020, 0x03), (0x1000, 0x65),
        (0x1001, 0x10)] } 6
      (fun t => t.ps == 0x24 && t.pc == 0x1002 && t.a == 0x99 && t.peek 0x0020 == 0x09) = true := by decide

/-- Vector: SBC: 80 − 01: V = 1. -/
theorem test_sbc_imm :
    after { base with a := 0x80, ps := 0x5, mem := [(0x1000, 0xE9), (0x1001, 0x01)] } 2
      (fun t => t.a == 0x7F && t.ps == 0x45 && t.pc == 0x1002) = true := by decide

/-- Vector: SBC: 50 − 50 − 1 (C = 0): FF. -/
theorem test_sbc_imm_again :
    after { base with a := 0x50, mem := [(0x1000, 0xE9), (0x1001, 0x50)] } 2
      (fun t => t.a == 0xFF && t.ps == 0x84 && t.pc == 0x1002) = true := by decide

/-- Vector: SBC $10,X with T = 1: operand [0040], destination [0030]. -/
theorem test_sbc_zp_x :
    after { base with x := 0x30, ps := 0x25, mem := [(0x0030, 0x05), (0x0040, 0x02), (0x1000, 0xF5), (0x1001,
        0x10)] } 7
      (fun t => t.ps == 0x25 && t.pc == 0x1002 && t.peek 0x0030 == 0x03) = true := by decide

/-- Vector: INC A: wraps, Z; C untouched. -/
theorem test_inc_acc :
    after { base with a := 0xFF, ps := 0x5, mem := [(0x1000, 0x3A)] } 2
      (fun t => t.a == 0x00 && t.ps == 0x07 && t.pc == 0x1001) = true := by decide

/-- Vector: INC $10: N. -/
theorem test_inc_zp :
    after { base with mem := [(0x0010, 0x7F), (0x1000, 0xE6), (0x1001, 0x10)] } 5
      (fun t => t.ps == 0x84 && t.pc == 0x1002 && t.peek 0x0010 == 0x80) = true := by decide

/-- Vector: DEC A: 00 to FF. -/
theorem test_dec_acc :
    after { base with mem := [(0x1000, 0x1A)] } 2
      (fun t => t.a == 0xFF && t.ps == 0x84 && t.pc == 0x1001) = true := by decide

/-- Vector: DEC $2000,X: Z. -/
theorem test_dec_abs_x :
    after { base with x := 0x10, mem := [(0x1000, 0xDE), (0x1002, 0x20), (0x2010, 0x01)] } 7
      (fun t => t.ps == 0x06 && t.pc == 0x1003 && t.peek 0x2010 == 0x00) = true := by decide

/-- Vector: INX. -/
theorem test_inx :
    after { base with x := 0xFF, mem := [(0x1000, 0xE8)] } 2
      (fun t => t.x == 0x00 && t.ps == 0x06 && t.pc == 0x1001) = true := by decide

/-- Vector: DEX. -/
theorem test_dex :
    after { base with mem := [(0x1000, 0xCA)] } 2
      (fun t => t.x == 0xFF && t.ps == 0x84 && t.pc == 0x1001) = true := by decide

/-- Vector: INY. -/
theorem test_iny :
    after { base with y := 0x7F, mem := [(0x1000, 0xC8)] } 2
      (fun t => t.y == 0x80 && t.ps == 0x84 && t.pc == 0x1001) = true := by decide

/-- Vector: DEY. -/
theorem test_dey :
    after { base with y := 0x1, mem := [(0x1000, 0x88)] } 2
      (fun t => t.y == 0x00 && t.ps == 0x06 && t.pc == 0x1001) = true := by decide

/-- Vector: MUL: FF × FF = FE01: high byte pushed, low byte in A, no flags. -/
theorem test_mul_zp_x :
    after { base with a := 0xFF, ps := 0x84, mem := [(0x0040, 0xFF), (0x1000, 0x62), (0x1001, 0x40)] } 15
      (fun t => t.a == 0x01 && t.sp == 0xFE && t.ps == 0x84 && t.pc == 0x1002 && t.peek 0x00FF == 0xFE) =
      true := by decide

/-- Vector: MUL $40,X: 12 × 11 = 132 = 0084. -/
theorem test_mul_zp_x_again :
    after { base with a := 0xC, x := 0x2, mem := [(0x0042, 0x0B), (0x1000, 0x62), (0x1001, 0x40)] } 15
      (fun t => t.a == 0x84 && t.sp == 0xFE && t.ps == 0x04 && t.pc == 0x1002 && t.peek 0x00FF == 0x00) =
      true := by decide

/-- Vector: DIV: 12345 / 100 = 123 rem 45, pushed ~2D = D2. -/
theorem test_div_zp_x :
    after { base with a := 0x64, mem := [(0x0040, 0x39), (0x0041, 0x30), (0x1000, 0xE2), (0x1001, 0x40)] } 16
      (fun t => t.a == 0x7B && t.sp == 0xFE && t.ps == 0x04 && t.pc == 0x1002 && t.peek 0x00FF == 0xD2) =
      true := by decide

/-- Vector: DIV by zero: A and [00FF] arbitrary, S = FE, PC = 1002 (D13). -/
theorem test_div_zp_x_again :
    after { base with mem := [(0x0040, 0x01), (0x1000, 0xE2), (0x1001, 0x40)] } 16
      (fun t => t.sp == 0xFE && t.ps == 0x04 && t.pc == 0x1002) = true := by decide

/-- Vector: AND: Z. -/
theorem test_and_imm :
    after { base with a := 0xF0, mem := [(0x1000, 0x29), (0x1001, 0x0F)] } 2
      (fun t => t.a == 0x00 && t.ps == 0x06 && t.pc == 0x1002) = true := by decide

/-- Vector: AND $10 with T = 1: [0020] = FF and F0. -/
theorem test_and_zp :
    after { base with x := 0x20, ps := 0x24, mem := [(0x0010, 0xF0), (0x0020, 0xFF), (0x1000, 0x25), (0x1001,
        0x10)] } 6
      (fun t => t.ps == 0xA4 && t.pc == 0x1002 && t.a == 0x00 && t.peek 0x0020 == 0xF0) = true := by decide

/-- Vector: ORA. -/
theorem test_ora_imm :
    after { base with a := 0x1, mem := [(0x1000, 0x09), (0x1001, 0x80)] } 2
      (fun t => t.a == 0x81 && t.ps == 0x84 && t.pc == 0x1002) = true := by decide

/-- Vector: EOR: Z. -/
theorem test_eor_imm :
    after { base with a := 0xFF, mem := [(0x1000, 0x49), (0x1001, 0xFF)] } 2
      (fun t => t.a == 0x00 && t.ps == 0x06 && t.pc == 0x1002) = true := by decide

/-- Vector: COM $10. -/
theorem test_com_zp :
    after { base with mem := [(0x0010, 0x0F), (0x1000, 0x44), (0x1001, 0x10)] } 5
      (fun t => t.ps == 0x84 && t.pc == 0x1002 && t.peek 0x0010 == 0xF0) = true := by decide

/-- Vector: BIT: N = M7, V = M6, Z from A and M; A unchanged. -/
theorem test_bit_zp :
    after { base with a := 0x1, mem := [(0x0010, 0xC0), (0x1000, 0x24), (0x1001, 0x10)] } 3
      (fun t => t.ps == 0xC6 && t.pc == 0x1002) = true := by decide

/-- Vector: BIT $2000: clears N, V, Z. -/
theorem test_bit_abs :
    after { base with a := 0xFF, ps := 0xC6, mem := [(0x1000, 0x2C), (0x1002, 0x20), (0x2000, 0x3F)] } 4
      (fun t => t.ps == 0x04 && t.pc == 0x1003) = true := by decide

/-- Vector: TST: Z. -/
theorem test_tst_zp :
    after { base with mem := [(0x1000, 0x64), (0x1001, 0x10)] } 3
      (fun t => t.ps == 0x06 && t.pc == 0x1002) = true := by decide

/-- Vector: TST: N. -/
theorem test_tst_zp_again :
    after { base with ps := 0x6, mem := [(0x0010, 0x80), (0x1000, 0x64), (0x1001, 0x10)] } 3
      (fun t => t.ps == 0x84 && t.pc == 0x1002) = true := by decide

/-- Vector: CMP less: N, C = 0. -/
theorem test_cmp_imm :
    after { base with a := 0x10, ps := 0x5, mem := [(0x1000, 0xC9), (0x1001, 0x11)] } 2
      (fun t => t.ps == 0x84 && t.pc == 0x1002) = true := by decide

/-- Vector: CMP: 80 − 01 = 7F: V not touched. -/
theorem test_cmp_imm_again :
    after { base with a := 0x80, ps := 0x44, mem := [(0x1000, 0xC9), (0x1001, 0x01)] } 2
      (fun t => t.ps == 0x45 && t.pc == 0x1002) = true := by decide

/-- Vector: CMP $10 with T = 1: compares [0020] with [0010], 3 + 1 cycles. -/
theorem test_cmp_zp :
    after { base with x := 0x20, ps := 0x24, mem := [(0x0010, 0x05), (0x0020, 0x09), (0x1000, 0xC5), (0x1001,
        0x10)] } 4
      (fun t => t.ps == 0x25 && t.pc == 0x1002 && t.a == 0x00) = true := by decide

/-- Vector: CPX. -/
theorem test_cpx_imm :
    after { base with mem := [(0x1000, 0xE0)] } 2
      (fun t => t.ps == 0x07 && t.pc == 0x1002) = true := by decide

/-- Vector: CPY $10. -/
theorem test_cpy_zp :
    after { base with y := 0x1, mem := [(0x0010, 0x02), (0x1000, 0xC4), (0x1001, 0x10)] } 3
      (fun t => t.ps == 0x84 && t.pc == 0x1002) = true := by decide

/-- Vector: ASL A: C = old bit 7, Z. -/
theorem test_asl_acc :
    after { base with a := 0x80, mem := [(0x1000, 0x0A)] } 2
      (fun t => t.a == 0x00 && t.ps == 0x07 && t.pc == 0x1001) = true := by decide

/-- Vector: ASL $10: C cleared, N. -/
theorem test_asl_zp :
    after { base with ps := 0x5, mem := [(0x0010, 0x41), (0x1000, 0x06), (0x1001, 0x10)] } 5
      (fun t => t.ps == 0x84 && t.pc == 0x1002 && t.peek 0x0010 == 0x82) = true := by decide

/-- Vector: LSR A: C, Z, N = 0. -/
theorem test_lsr_acc :
    after { base with a := 0x1, ps := 0x84, mem := [(0x1000, 0x4A)] } 2
      (fun t => t.a == 0x00 && t.ps == 0x07 && t.pc == 0x1001) = true := by decide

/-- Vector: ROL A: C in to bit 0, bit 7 out. -/
theorem test_rol_acc_again :
    after { base with a := 0x80, ps := 0x5, mem := [(0x1000, 0x2A)] } 2
      (fun t => t.a == 0x01 && t.ps == 0x05 && t.pc == 0x1001) = true := by decide

/-- Vector: ROR A: C in to bit 7. -/
theorem test_ror_acc :
    after { base with a := 0x1, ps := 0x5, mem := [(0x1000, 0x6A)] } 2
      (fun t => t.a == 0x80 && t.ps == 0x85 && t.pc == 0x1001) = true := by decide

/-- Vector: ROR $2000,X. -/
theorem test_ror_abs_x :
    after { base with x := 0x1, mem := [(0x1000, 0x7E), (0x1002, 0x20), (0x2001, 0x02)] } 7
      (fun t => t.ps == 0x04 && t.pc == 0x1003 && t.peek 0x2001 == 0x01) = true := by decide

/-- Vector: RRF: nibbles swapped, no flags. -/
theorem test_rrf_zp :
    after { base with mem := [(0x0010, 0xA5), (0x1000, 0x82), (0x1001, 0x10)] } 8
      (fun t => t.ps == 0x04 && t.pc == 0x1002 && t.peek 0x0010 == 0x5A) = true := by decide

/-- Vector: CLB 0,A: A becomes 0, Z not set. -/
theorem test_clb_acc_again :
    after { base with a := 0x1, mem := [(0x1000, 0x1B)] } 2
      (fun t => t.a == 0x00 && t.ps == 0x04 && t.pc == 0x1001) = true := by decide

/-- Vector: CLB 7,$10. -/
theorem test_clb_zp_again :
    after { base with mem := [(0x0010, 0xFF), (0x1000, 0xFF), (0x1001, 0x10)] } 5
      (fun t => t.ps == 0x04 && t.pc == 0x1002 && t.peek 0x0010 == 0x7F) = true := by decide

/-- Vector: SEB 7,A: N not set. -/
theorem test_seb_acc :
    after { base with mem := [(0x1000, 0xEB)] } 2
      (fun t => t.a == 0x80 && t.ps == 0x04 && t.pc == 0x1001) = true := by decide

/-- Vector: SEB 0,$10. -/
theorem test_seb_zp :
    after { base with mem := [(0x1000, 0x0F), (0x1001, 0x10)] } 5
      (fun t => t.ps == 0x04 && t.pc == 0x1002 && t.peek 0x0010 == 0x01) = true := by decide

/-- Vector: SEC. -/
theorem test_sec :
    after { base with mem := [(0x1000, 0x38)] } 2
      (fun t => t.ps == 0x05 && t.pc == 0x1001) = true := by decide

/-- Vector: CLD. -/
theorem test_cld :
    after { base with ps := 0xC, mem := [(0x1000, 0xD8)] } 2
      (fun t => t.ps == 0x04 && t.pc == 0x1001) = true := by decide

/-- Vector: SED. -/
theorem test_sed :
    after { base with mem := [(0x1000, 0xF8)] } 2
      (fun t => t.ps == 0x0C && t.pc == 0x1001) = true := by decide

/-- Vector: CLI. -/
theorem test_cli :
    after { base with mem := [(0x1000, 0x58)] } 2
      (fun t => t.ps == 0x00 && t.pc == 0x1001) = true := by decide

/-- Vector: SEI. -/
theorem test_sei :
    after { base with ps := 0x0, mem := [(0x1000, 0x78)] } 2
      (fun t => t.ps == 0x04 && t.pc == 0x1001) = true := by decide

/-- Vector: CLT. -/
theorem test_clt :
    after { base with ps := 0x24, mem := [(0x1000, 0x12)] } 2
      (fun t => t.ps == 0x04 && t.pc == 0x1001) = true := by decide

/-- Vector: SET. -/
theorem test_set :
    after { base with mem := [(0x1000, 0x32)] } 2
      (fun t => t.ps == 0x24 && t.pc == 0x1001) = true := by decide

/-- Vector: CLV. -/
theorem test_clv :
    after { base with ps := 0x44, mem := [(0x1000, 0xB8)] } 2
      (fun t => t.ps == 0x04 && t.pc == 0x1001) = true := by decide

/-- Vector: JMP $1234. -/
theorem test_jmp_abs :
    after { base with mem := [(0x1000, 0x4C), (0x1001, 0x34), (0x1002, 0x12)] } 3
      (fun t => t.ps == 0x04 && t.pc == 0x1234) = true := by decide

/-- Vector: JMP ($20FF): refused (U5). -/
theorem test_jmp_ind_again :
    refusesWith (step { base with mem := [(0x1000, 0x6C), (0x1001, 0xFF), (0x1002, 0x20), (0x2000, 0x40), (0x2100, 0x30)] })
      .jmpIndirectPageEnd = true := by decide

/-- Vector: JMP ($FF): high byte from 0000 (D6). -/
theorem test_jmp_zp_ind_again :
    after { base with mem := [(0x0000, 0x30), (0x0100, 0x40), (0x1000, 0xB2), (0x1001, 0xFF)] } 4
      (fun t => t.ps == 0x04 && t.pc == 0x3000) = true := by decide

/-- Vector: BRA to itself: 4 cycles, no taken-branch addition. -/
theorem test_bra :
    after { base with mem := [(0x1000, 0x80), (0x1001, 0xFE)] } 4
      (fun t => t.ps == 0x04 && t.pc == 0x1000) = true := by decide

/-- Vector: BRA −128: 1002 − 80. -/
theorem test_bra_again :
    after { base with mem := [(0x1000, 0x80), (0x1001, 0x80)] } 4
      (fun t => t.ps == 0x04 && t.pc == 0x0F82) = true := by decide

/-- Vector: JSR $3000: pushes 10, 02 (address of the last byte). -/
theorem test_jsr_abs :
    after { base with mem := [(0x1000, 0x20), (0x1002, 0x30)] } 6
      (fun t => t.sp == 0xFD && t.ps == 0x04 && t.pc == 0x3000 && t.peek 0x00FF == 0x10 &&
        t.peek 0x00FE == 0x02) = true := by decide

/-- Vector: JSR ($40): pushes 10, 01. -/
theorem test_jsr_zp_ind :
    after { base with mem := [(0x0041, 0x30), (0x1000, 0x02), (0x1001, 0x40)] } 7
      (fun t => t.sp == 0xFD && t.ps == 0x04 && t.pc == 0x3000 && t.peek 0x00FF == 0x10 &&
        t.peek 0x00FE == 0x01) = true := by decide

/-- Vector: RTS: pulls 1002, continues at 1003. -/
theorem test_rts :
    after { base with sp := 0xFD, mem := [(0x00FE, 0x02), (0x00FF, 0x10), (0x1000, 0x60)] } 6
      (fun t => t.sp == 0xFF && t.ps == 0x04 && t.pc == 0x1003) = true := by decide

/-- Vector: RTS with FFFF on the stack: PC = 0000 (D4). -/
theorem test_rts_again :
    after { base with sp := 0xFD, mem := [(0x00FE, 0xFF), (0x00FF, 0xFF), (0x1000, 0x60)] } 6
      (fun t => t.sp == 0xFF && t.ps == 0x04 && t.pc == 0x0000) = true := by decide

/-- Vector: RTI: PS = C3 (N V Z C, I = 0), PC = 1234 exactly. -/
theorem test_rti :
    after { base with sp := 0xFC, mem := [(0x00FD, 0xC3), (0x00FE, 0x34), (0x00FF, 0x12), (0x1000, 0x40)] } 6
      (fun t => t.sp == 0xFF && t.ps == 0xC3 && t.pc == 0x1234) = true := by decide

/-- Vector: BBS 0,$10: taken to 1003 + 5. -/
theorem test_bbs_zp :
    after { base with mem := [(0x0010, 0x01), (0x1000, 0x07), (0x1001, 0x10), (0x1002, 0x05)] } 7
      (fun t => t.ps == 0x04 && t.pc == 0x1008) = true := by decide

/-- Vector: BBS 0,$10: not taken. -/
theorem test_bbs_zp_again :
    after { base with mem := [(0x0010, 0xFE), (0x1000, 0x07), (0x1001, 0x10), (0x1002, 0x05)] } 5
      (fun t => t.ps == 0x04 && t.pc == 0x1003) = true := by decide

/-- Vector: BBS 7,A: taken. -/
theorem test_bbs_acc :
    after { base with a := 0x80, mem := [(0x1000, 0xE3), (0x1001, 0x10)] } 6
      (fun t => t.ps == 0x04 && t.pc == 0x1012) = true := by decide

/-- Vector: BCS taken. -/
theorem test_bcs :
    after { base with ps := 0x5, mem := [(0x1000, 0xB0), (0x1001, 0x04)] } 4
      (fun t => t.ps == 0x05 && t.pc == 0x1006) = true := by decide

/-- Vector: BNE taken backwards. -/
theorem test_bne :
    after { base with mem := [(0x1000, 0xD0), (0x1001, 0xFC)] } 4
      (fun t => t.ps == 0x04 && t.pc == 0x0FFE) = true := by decide

/-- Vector: BNE not taken. -/
theorem test_bne_again :
    after { base with ps := 0x6, mem := [(0x1000, 0xD0), (0x1001, 0xFC)] } 2
      (fun t => t.ps == 0x06 && t.pc == 0x1002) = true := by decide

/-- Vector: BEQ taken. -/
theorem test_beq :
    after { base with ps := 0x6, mem := [(0x1000, 0xF0), (0x1001, 0x10)] } 4
      (fun t => t.ps == 0x06 && t.pc == 0x1012) = true := by decide

/-- Vector: BPL not taken. -/
theorem test_bpl :
    after { base with ps := 0x84, mem := [(0x1000, 0x10), (0x1001, 0x10)] } 2
      (fun t => t.ps == 0x84 && t.pc == 0x1002) = true := by decide

/-- Vector: BMI taken. -/
theorem test_bmi :
    after { base with ps := 0x84, mem := [(0x1000, 0x30), (0x1001, 0x10)] } 4
      (fun t => t.ps == 0x84 && t.pc == 0x1012) = true := by decide

/-- Vector: BVC taken. -/
theorem test_bvc :
    after { base with mem := [(0x1000, 0x50), (0x1001, 0x10)] } 4
      (fun t => t.ps == 0x04 && t.pc == 0x1012) = true := by decide

/-- Vector: BVS not taken. -/
theorem test_bvs :
    after { base with mem := [(0x1000, 0x70), (0x1001, 0x10)] } 2
      (fun t => t.ps == 0x04 && t.pc == 0x1002) = true := by decide

/-- Vector: BEQ across the top of memory: FFF2 + 7F = 0071 (D4). -/
theorem test_beq_again :
    after { base with ps := 0x6, pc := 0xFFF0, mem := [(0xFFF0, 0xF0), (0xFFF1, 0x7F)] } 4
      (fun t => t.ps == 0x06 && t.pc == 0x0071) = true := by decide

/-- Vector: BRK with I = 0: pushes 10, 02, then PS with B = 1 (91); live PS gets B and I. -/
theorem test_brk :
    after { base with ps := 0x81, mem := [(0x1001, 0xEA), (0xFFF5, 0x80)] } 7
      (fun t => t.sp == 0xFC && t.ps == 0x95 && t.pc == 0x8000 && t.peek 0x00FF == 0x10 && t.peek 0x00FE == 0x02 &&
        t.peek 0x00FD == 0x91) = true := by decide

/-- Vector: BRK with STACK_PAGE = 0x01, S = 01: writes 0101, 0100, 01FF (wrap, D5). -/
theorem test_brk_again :
    after { base with sp := 0x1, mem := [(0x1001, 0xEA), (0xFFF5, 0x80)], cfg := page1 } 7
      (fun t => t.sp == 0xFE && t.ps == 0x14 && t.pc == 0x8000 && t.peek 0x0101 == 0x10 && t.peek 0x0100 == 0x02 &&
        t.peek 0x01FF == 0x14) = true := by decide

/-- Vector: WIT. -/
theorem test_wit :
    after { base with mem := [(0x1000, 0xC2)] } 2
      (fun t => t.ps == 0x04 && t.pc == 0x1001 && t.run == .wait) = true := by decide

/-- Vector: STP with STP_MODE = enabled; with disabled: PC = 1001, running, 2 cycles. -/
theorem test_stp :
    after { base with mem := [(0x1000, 0x42)] } 2
      (fun t => t.ps == 0x04 && t.pc == 0x1001 && t.run == .stop) = true := by decide

/-- Vector: NOP. -/
theorem test_nop :
    after { base with ps := 0xFF, mem := [(0x1000, 0xEA)] } 2
      (fun t => t.ps == 0xFF && t.pc == 0x1001) = true := by decide

/-- Vector: ADC decimal 58 + 46 + 1 = 105 (R183; N, V and Z are arbitrary). -/
theorem test_adc_decimal :
    (let o := addDecimal 0 0x58 0x46 true; o.result == 0x05 && o.c) = true := by decide

/-- Vector: SBC decimal 00 − 01 = 99 with a borrow (R183; N, V and Z are arbitrary). -/
theorem test_sbc_decimal :
    (let o := subDecimal 0 0x00 0x01 true; o.result == 0x99 && !o.c) = true := by decide

/-- Vector: op-code 04 is refused (R110). -/
theorem test_undefined_refused :
    refusesWith (step { base with mem := [(0x1000, 0x04)] }) (.undefinedOpcode 0x04) = true := by decide

/-- Vector: STP with `STP_MODE = disabled` only advances PC (R283). -/
theorem test_stp_disabled :
    after { base with mem := [(0x1000, 0x42)], cfg := { referenceProduct with stpMode := .disabled } } 2
      (fun t => t.run == .running && t.pc == 0x1001) = true := by decide

/-- MUL on a product without it, its operand byte on no memory: no operand is fetched (R110, R111). -/
theorem test_absent_mul :
    refusesWith (step { base with
        pc := 0x0FFF, mem := [(0x0FFF, 0x62)]
        cfg := { referenceProduct with
          hasMulDiv := false, memmap := [{ first := 0x0000, last := 0x0FFF, cls := .ram }] } })
      (.undefinedOpcode 0x62) = true := by decide

/-! ## Interrupts and standby (2.8 of the vectors): sources k and j, request bits 0 and 1 of 0x3C, enable bits 0 and 1 of
0x3E, vectors 0xFFF8 and 0xFFFA, handlers at 0x3000 and 0x3800 -/

def srcK : IntSource :=
  { name := "k", vector := 0xFFF8, request := ⟨0x003C, 0⟩, enable := ⟨0x003E, 0⟩, external := true }

def srcJ : IntSource :=
  { name := "j", vector := 0xFFFA, request := ⟨0x003C, 1⟩, enable := ⟨0x003E, 1⟩, external := false }

def twoSources : Product := { referenceProduct with sources := [srcK, srcJ] }

/-- The default start state on that product, at 0x1234 with flags, request byte and enable byte as given. -/
def atBoundary (ps req en : Byte) : State :=
  { base with
    ps := ps, pc := 0x1234, cfg := twoSources
    mem := [(0x003C, req), (0x003E, en), (0x1234, 0xEA), (0xFFF9, 0x30), (0xFFFB, 0x38)] }

theorem test_entry :
    holds (step (atBoundary 0x81 0x01 0x01)) (fun t => t.sp == 0xFC && t.ps == 0x85 && t.pc == 0x3000 &&
      t.peek 0x00FF == 0x12 && t.peek 0x00FE == 0x34 && t.peek 0x00FD == 0x81 && t.peek 0x003C == 0x00) = true := by
  decide

theorem test_entry_clears_b :
    holds (step (atBoundary 0x91 0x01 0x01)) (fun t => t.ps == 0x85 && t.peek 0x00FD == 0x81) = true := by decide

theorem test_masked_by_i :
    holds (step (atBoundary 0x85 0x01 0x01)) (fun t => t.pc == 0x1235 && t.peek 0x003C == 0x01) = true := by decide

theorem test_not_enabled :
    holds (step (atBoundary 0x81 0x01 0x02)) (fun t => t.pc == 0x1235 && t.peek 0x003C == 0x01) = true := by decide

theorem test_priority :
    holds (step (atBoundary 0x81 0x03 0x03)) (fun t => t.pc == 0x3000 && t.peek 0x003C == 0x02) = true := by decide

theorem test_entry_keeps_t_and_d :
    holds (step (atBoundary 0x28 0x01 0x01)) (fun t => t.ps == 0x2C && t.peek 0x00FD == 0x28) = true := by decide

theorem test_wait_wakes_on_request :
    holds (step { atBoundary 0x00 0x00 0x01 with run := .wait, inputs := [{ requests := [0] }] })
      (fun t => t.run == .running && t.pc == 0x3000 && t.peek 0x00FE == 0x34) = true := by decide

theorem test_stop_wakes_on_external_only :
    (holds (step { atBoundary 0x00 0x00 0x03 with run := .stop, inputs := [{ requests := [0] }] })
        (fun t => t.pc == 0x3000) &&
      holds (step { atBoundary 0x00 0x00 0x03 with run := .stop, inputs := [{ requests := [1] }] })
        (fun t => t.run == .stop && t.peek 0x003C == 0x00)) = true := by decide

theorem test_wake_with_i_set :
    (holds (step { atBoundary 0x04 0x00 0x01 with run := .wait, inputs := [{ requests := [0] }] })
        (fun t => t.run == .wait && t.peek 0x003C == 0x01) &&
      holds (step { atBoundary 0x04 0x00 0x01 with
          run := .wait, inputs := [{ requests := [0] }], cfg := { twoSources with wakeWithISet := .resume } })
        (fun t => t.run == .running && t.pc == 0x1234 && t.peek 0x003C == 0x01)) = true := by decide

theorem test_delayed_acceptance :
    holds (step { atBoundary 0x81 0x01 0x01 with inputs := [{ delayed := true }] }) (fun t => t.pc == 0x1235) = true := by
  decide

/-- A reset in the stop state: RAM as the reset leaves it, here with the handler's address at the reset vector. -/
theorem test_reset_in_stop :
    holds (step { atBoundary 0x81 0x01 0x01 with
        run := .stop
        inputs := [{ reset := some { a := 1, x := 2, y := 3, sp := 4, ps := 0xFB, ram := [(0x0001, 0x80)] } }] })
      (fun t => t.run == .running && t.ps == 0xFF && t.pc == 0x8000 && t.a == 1 && t.peek 0x003C == 0x00) = true := by
  decide

/-- BRK with k pending and I = 1, in each of the three behaviours of R319. -/
theorem test_brk_with_pending :
    (let s (m : BrkWithPending) : State :=
       { atBoundary 0x04 0x01 0x01 with
         cfg := { twoSources with brkWithPending := m }
         mem := [(0x003C, 0x01), (0x003E, 0x01), (0xFFF5, 0x20), (0xFFF9, 0x30)] }
     holds (step (s .stayPending)) (fun t => t.pc == 0x2000 && t.sp == 0xFC && t.peek 0x003C == 0x01) &&
       holds (step (s .sourceVector)) (fun t => t.pc == 0x3000 && t.sp == 0xFC && t.peek 0x003C == 0x00) &&
       holds (step (s .entryAfter)) (fun t => t.pc == 0x3000 && t.sp == 0xF9 && t.peek 0x00FB == 0x00 &&
         t.peek 0x00FC == 0x20 && t.peek 0x003C == 0x00)) = true := by decide

/-- One LDM that clears a request bit and sets the enable bit beside it (R323): both outcomes at the next boundary. -/
theorem test_raced_write :
    (let k : IntSource := { srcK with enable := ⟨0x003C, 4⟩ }
     let s : State :=
       { base with
         ps := 0x00, cfg := { referenceProduct with sources := [k] }
         mem := [(0x003C, 0x01), (0x1000, 0x3C), (0x1001, 0x10), (0x1002, 0x3C), (0x1003, 0xEA), (0xFFF9, 0x30)] }
     after2 { s with inputs := [{}, { racedTaken := [k] }] } (fun t => t.pc == 0x3000) &&
       after2 s (fun t => t.pc == 0x1004)) = true := by decide

/-! ## Hazard sequences (2.9 of the vectors) -/

theorem test_plp_then_lda :
    refuses2 { base with sp := 0xFE, mem := [(0x00FF, 0xC3), (0x1000, 0x28), (0x1001, 0xA9)] }
      (.hazardViolation .plpNotFollowedByNop) = true := by decide

theorem test_pla_then_lda :
    after2 { base with sp := 0xFE, mem := [(0x1000, 0x68), (0x1001, 0xA9)] } (fun t => t.pc == 0x1003) =
      true := by decide

theorem test_decimal_adc_then_clc :
    refuses2 { base with a := 0x09, ps := 0x0C, mem := [(0x1000, 0x69), (0x1001, 0x01), (0x1002, 0x18)] }
      (.hazardViolation .decimalFlagWrite) = true := by decide

theorem test_decimal_sbc_then_cld :
    refuses2 { base with a := 0x10, ps := 0x0D, mem := [(0x1000, 0xE9), (0x1001, 0x01), (0x1002, 0xD8)] }
      (.hazardViolation .decimalFlagWrite) = true := by decide

theorem test_binary_adc_then_clc :
    after2 { base with a := 0x09, mem := [(0x1000, 0x69), (0x1001, 0x01), (0x1002, 0x18)] }
      (fun t => t.a == 0x0A && t.ps == 0x04 && t.pc == 0x1003) = true := by decide

/-- CLB on a request bit leaves the byte's old value in the history, and one instruction later it is gone; CLB on a bit
that is 0 already leaves it too (R353). -/
theorem test_request_byte_history :
    (let s (v : Byte) : State :=
       { atBoundary 0x04 v 0x00 with
         mem := [(0x003C, v), (0x1234, 0x1F), (0x1235, 0x3C), (0x1236, 0xEA)] }
     holds (step (s 0x01)) (fun t => t.prev.requestBytes == [(0x003C, 0x01)]) &&
       holds (step (s 0x02)) (fun t => t.prev.requestBytes == [(0x003C, 0x02)]) &&
       after2 (s 0x01) (fun t => t.prev.requestBytes == [])) = true := by decide

/-- After a CLB that changed nothing, a request lands and BBC comes: the bit it finds now is 1, and the old bit, which it
may see instead, is 0 (R353). -/
theorem test_stale_bit_after_same_value :
    (let s : State :=
       { atBoundary 0x04 0x02 0x00 with
         mem := [(0x003C, 0x02), (0x1234, 0x1F), (0x1235, 0x3C)], inputs := [{}, { requests := [0] }] }
     holds (step s) fun t => (t.landed.read .operand 0x003C).getLsbD 0 &&
       (t.landed.prev.requestBytes.lookup 0x003C == some 0x02)) = true := by decide

/-! ## Requests inside an instruction (R76), on the product of the section before -/

/-- ADC $3C with T = 1 and X = 0x3C reads the request byte twice: a request before both reads, between them, before the
write, and after it. -/
theorem test_request_between_reads :
    (let s (w n : Nat) : State :=
       { atBoundary 0x24 0x00 0x00 with
         x := 0x3C, mem := [(0x003C, 0x10), (0x1234, 0x65), (0x1235, 0x3C)]
         inputs := [{ during := [{ source := 1, writes := w, turn := n }] }] }
     holds (step (s 0 2)) (fun t => t.peek 0x003C == 0x24 && t.bus == {}) &&
       holds (step (s 0 3)) (fun t => t.peek 0x003C == 0x22) &&
       holds (step (s 0 4)) (fun t => t.peek 0x003C == 0x20) &&
       holds (step (s 1 0)) (fun t => t.peek 0x003C == 0x22)) = true := by decide

/-- SEB 7,$3C: a request between its read and its write is lost, and one inside the entry for a source stays. -/
theorem test_request_before_write :
    (let d (w n : Nat) : List Input := [{ during := [{ source := 0, writes := w, turn := n }] }]
     let s (w n : Nat) : State :=
       { atBoundary 0x04 0x00 0x00 with mem := [(0x1234, 0xEF), (0x1235, 0x3C)], inputs := d w n }
     holds (step (s 0 2)) (fun t => t.peek 0x003C == 0x81) &&
       holds (step (s 0 3)) (fun t => t.peek 0x003C == 0x80) &&
       holds (step { atBoundary 0x81 0x01 0x01 with inputs := d 0 0 })
         (fun t => t.pc == 0x3000 && t.peek 0x003C == 0x01)) = true := by decide

/-- A BBC that follows a NOP sees the byte stored now, whatever the free values are (R353). -/
theorem test_bbc_after_nop :
    after2 { atBoundary 0x04 0x00 0x00 with mem := [(0x1234, 0xEA), (0x1235, 0x17), (0x1236, 0x3C), (0x1237, 0x10)] }
      (fun t => t.pc == 0x1248) = true := by decide

/-! ## The machine's classes of memory -/

/-- RAM up to 0x0FFF, a device byte at 0x1000, nothing beyond but ROM from 0xF000. -/
def mapped : Product :=
  { twoSources with
    memmap := [{ first := 0x0000, last := 0x0FFF, cls := .ram }, { first := 0x1000, last := 0x1000, cls := .sfr },
      { first := 0xF000, last := 0xFFFF, cls := .rom }] }

theorem test_rom_keeps : holds (exec (.staAbs 0x00 0xF0) { base with a := 0x55, cfg := mapped })
    (fun t => t.peek 0xF000 == 0x00 && t.mem == []) = true := by decide
theorem test_unmapped_keeps : holds (exec (.staAbs 0x00 0x20) { base with a := 0x55, cfg := mapped })
    (fun t => t.mem == []) = true := by decide
theorem test_device_stores : holds (exec (.staAbs 0x00 0x10) { base with a := 0x55, cfg := mapped })
    (fun t => t.peek 0x1000 == 0x55) = true := by decide

/-! ## Reset -/

theorem test_reset_masks_interrupts : State.reset.ps = 0x04 := by decide
theorem test_reset_runs : State.reset.run = .running ∧ State.reset.prev = Prev.other ∧ State.reset.pc = 0x0000 := by decide

/-! ## Witnesses: for every obligation with hypotheses, values that meet all of them -/

theorem witness_DecodeEncodeAgree :
    (Instr.bbcZp 7 0x04 0xF1).wellFormed = true ∧ (Instr.clbAcc 0).wellFormed = true := by decide

theorem witness_EncodeDecodeAgree : decodeBytes [0xB7, 0x04, 0xF1, 0x55] = .ok (.bbcZp 5 0x04 0xF1, [0x55]) := rfl

theorem witness_LengthByColumn : (Instr.ldmZp 0xA5 0x30).wellFormed = true ∧ Instr.brk.wellFormed = true := by decide

theorem witness_UndefinedOpcodesRefused :
    (let s : State := { base with mem := [(0x1000, 0x04)] }
     (0x04 : Byte) ∈ Rows.undefinedOps ∧ s.Quiet ∧ s.run = .running ∧ s.fetchable s.pc = true ∧ s.peek s.pc = 0x04) ∧
    (0x00 : Byte) ∉ Rows.undefinedOps ∧ (0xFF : Byte) ∉ Rows.undefinedOps :=
  ⟨⟨by decide, ⟨by decide, by decide⟩, rfl, by decide, by decide⟩, by decide, by decide⟩

/-- PC on a device register; and an instruction whose second, or third, byte is on one. -/
theorem witness_FetchNeedsMemory :
    (let s : State := { base with cfg := mapped }
     s.Quiet ∧ s.run = .running ∧ s.fetchable s.pc = false) ∧
    (let s : State := { base with cfg := mapped, pc := 0x0FFF, mem := [(0x0FFF, 0xA9)] }
     s.Quiet ∧ s.run = .running ∧
       decodeBytes [s.peek s.pc, s.peek (s.pc + 1), s.peek (s.pc + 2)] = .ok (.ldaImm 0x00, [0x00]) ∧
       1 < (Instr.ldaImm 0x00).length ∧ lacks s.cfg (s.peek s.pc) = false ∧
       (∀ j < 1, s.fetchable (s.pc + BitVec.ofNat 16 j) = true) ∧ s.fetchable (s.pc + BitVec.ofNat 16 1) = false) ∧
    (let s : State := { base with cfg := mapped, pc := 0x0FFE, mem := [(0x0FFE, 0xAD)] }
     s.Quiet ∧ s.run = .running ∧
       decodeBytes [s.peek s.pc, s.peek (s.pc + 1), s.peek (s.pc + 2)] = .ok (.ldaAbs 0x00 0x00, []) ∧
       2 < (Instr.ldaAbs 0x00 0x00).length ∧ lacks s.cfg (s.peek s.pc) = false ∧
       (∀ j < 2, s.fetchable (s.pc + BitVec.ofNat 16 j) = true) ∧ s.fetchable (s.pc + BitVec.ofNat 16 2) = false) :=
  ⟨⟨⟨by decide, by decide⟩, rfl, by decide⟩,
    ⟨⟨by decide, by decide⟩, rfl, rfl, by decide, by decide, by decide, by decide⟩,
    ⟨⟨by decide, by decide⟩, rfl, rfl, by decide, by decide, by decide, by decide⟩⟩

/-- A boundary at which a request arrives, with another inside the instruction. -/
theorem witness_StepRunsDecodedInstruction :
    let s : State :=
      { atBoundary 0x04 0x00 0x00 with
        mem := [(0x1234, 0xA9), (0x1235, 0x80)]
        inputs := [{ requests := [0], during := [{ source := 1, writes := 0, turn := 0 }] }] }
    let u := s.landed
    s.input.reset = none ∧ u.accepted s.input = none ∧ s.run = .running ∧
      decodeBytes [u.peek u.pc, u.peek (u.pc + 1), u.peek (u.pc + 2)] = .ok (.ldaImm 0x80, [0x00]) ∧
      (Instr.ldaImm 0x80).wellFormed = true ∧
      (∀ k < (Instr.ldaImm 0x80).length, u.fetchable (u.pc + BitVec.ofNat 16 k) = true) ∧
      hazard (.ldaImm 0x80) u = none :=
  ⟨rfl, by decide, rfl, by decide, by decide, by decide, by decide⟩

/-- The entry for a source: a step that stores, in a state with the invariant. -/
theorem witness_StepKeepsInvariant :
    (atBoundary 0x81 0x01 0x01).Inv ∧ ∃ t, step (atBoundary 0x81 0x01 0x01) = .next t :=
  ⟨⟨by decide, fun h => absurd rfl h, rfl⟩, _, rfl⟩

theorem witness_StepKeepsRom :
    let s : State := { base with cfg := mapped, pc := 0x0800, mem := [(0x0800, 0x8D), (0x0802, 0xF0)] }
    (∃ t, step s = .next t) ∧ classOf s.cfg 0xF000 = .rom := ⟨⟨_, rfl⟩, by decide⟩

theorem witness_StepKeepsProduct : ∃ t, step (atBoundary 0x81 0x01 0x01) = .next t := ⟨_, rfl⟩

theorem witness_FlagFrame : ∃ t, exec (.adcImm 0x01) base = .next t := ⟨_, rfl⟩

theorem witness_RegisterFrame :
    (∃ t, exec (.staZp 0x40) base = .next t) ∧ writesA (.staZp 0x40) base = false ∧
      writesX Mnemonic.sta = false ∧ writesY Mnemonic.sta = false ∧ writesS Mnemonic.sta = false :=
  ⟨⟨_, rfl⟩, rfl, rfl, rfl, rfl⟩

/-- An address beside the stored one: with nothing arriving; and with a request arriving in another byte. -/
theorem witness_MemoryFrame :
    ((∃ t, exec (.staZp 0x40) base = .next t) ∧ (0x0041 : Addr) ∉ storedAddrs (.staZp 0x40) base ∧
      base.bus.arrivals = []) ∧
    (let s : State := { atBoundary 0x04 0x00 0x00 with bus := { arrivals := [{ source := 0, writes := 0, turn := 0 }] } }
     (∃ t, exec (.staZp 0x40) s = .next t) ∧ (0x0041 : Addr) ∉ storedAddrs (.staZp 0x40) s ∧
       ∀ k ∈ s.cfg.sources, k.request.addr ≠ 0x0041) :=
  ⟨⟨⟨_, rfl⟩, by decide, rfl⟩, ⟨_, rfl⟩, by decide, by decide⟩

theorem witness_HiddenFrame :
    (∃ t, exec .nop base = .next t) ∧ storedAddrs .nop base = [] ∧ (∃ t, exec .brk base = .next t) ∧
      base.run = .running :=
  ⟨⟨_, rfl⟩, rfl, ⟨_, rfl⟩, rfl⟩

/-- The last address of memory. -/
theorem witness_SequentialAdvance :
    (∃ t, exec .nop { base with pc := 0xFFFF } = .next t) ∧ transfersControl Mnemonic.nop = false := ⟨⟨_, rfl⟩, rfl⟩

theorem witness_ExecCompletesOrStops :
    stopReason (.mulZpX 0x40) base = none ∧ stopReason .stp base = none ∧
      stopReason (.jmpInd 0xFE 0x20) base = none ∧
      stopReason (.jmpInd 0xFF 0x20) base = some .jmpIndirectPageEnd ∧
      stopReason (.divZpX 0x40) { base with cfg := { referenceProduct with hasMulDiv := false } } =
        some (.undefinedOpcode 0xE2) := by decide

/-- The last zero page byte: the pointer's high byte is at 0x0000. -/
theorem witness_EffectiveAddresses :
    (0x00FF : Addr).toNat = ((0xFF : Byte).toNat + base.x.toNat) % 256 ∧
      (0x0000 : Addr).toNat = ((0xFF : Byte).toNat + base.x.toNat + 1) % 256 ∧
      (0x00FF : Addr).toNat = (0xFF : Byte).toNat ∧ (0x0000 : Addr).toNat = ((0xFF : Byte).toNat + 1) % 256 := by decide

theorem witness_StackAddresses :
    page1.stackPage = .fixed true ∧
      ({ referenceProduct with stackPage := .selectionBit ⟨0x003B, 2⟩ } : Product).stackPage =
        .selectionBit ⟨0x003B, 2⟩ := ⟨rfl, rfl⟩

theorem witness_LdaLoads : (.ldaIndY 0xFF, .mem (.indY 0xFF), [0xB1, 0xFF], 6) ∈ Rows.lda 0x80 0xFF 0x12 0xAD := by decide

theorem witness_LdxLdyLoad :
    (.ldxZpY 0x62, .mem (.zpY 0x62), [0xB6, 0x62], 4) ∈ Rows.ldx 0x00 0x62 0x00 0x20 ∧
      (.ldyImm 0x7F, .imm 0x7F, [0xA0, 0x7F], 2) ∈ Rows.ldy 0x7F 0x80 0x00 0x20 := by decide

theorem witness_StoresWrite :
    (.ldmZp 0xA5 0x30, .zp 0x30, 0xA5, [0x3C, 0xA5, 0x30], 4) ∈ Rows.store base 0xA5 0x30 0x34 0x12 ∧
      (.staZp 0x30, .zp 0x30, base.a, [0x85, 0x30], 4) ∈ Rows.store base 0xA5 0x30 0x34 0x12 := by decide

theorem witness_TransfersCopy :
    (Instr.tsx = .tsx ∧ State.sp = State.sp ∧ State.x = State.x ∧ (0xBA : Byte) = 0xBA ∧
      ([.n, .z] : List Machine.Flag) = [.n, .z]) ∧ ([.n, .z] : List Machine.Flag) ≠ [] :=
  ⟨⟨rfl, rfl, rfl, rfl, rfl⟩, by decide⟩

theorem witness_PhaPhpPush : (.pha, base.a, 0x48) ∈ Rows.push base ∧ (.php, base.ps, 0x08) ∈ Rows.push base := by decide

/-- `S` at its last value: the pull reads at 0x00. -/
theorem witness_PlaPlpPull : (0x00 : Byte).toNat = (base.sp.toNat + 1) % 256 := by decide

theorem witness_AdcBinary :
    (.adcImm 0xA5, .imm 0xA5, [0x69, 0xA5], 2) ∈ Rows.adc 0xA5 0x40 0x12 0xAD ∧
      (0xA5 : Byte) = (Operand.imm 0xA5).value base ∧
      (0x00 : Byte) = (if base.flag .t then base.read .mx (zpAddr base.x) else base.a) ∧ base.flag .d = false := by decide

theorem witness_SbcBinary :
    (.sbcImm 0x01, .imm 0x01, [0xE9, 0x01], 2) ∈ Rows.sbc 0x01 0x40 0x12 0xAD ∧
      (0x01 : Byte) = (Operand.imm 0x01).value base ∧
      (0x00 : Byte) = (if base.flag .t then base.read .mx (zpAddr base.x) else base.a) ∧ base.flag .d = false := by decide

/-- 99 + 01 = 100, and 00 − 01 = −1 with no borrow coming in. -/
theorem witness_DecimalArithmetic :
    (let s : State := { base with a := 0x99, ps := 0x0C }
     (.adcImm 0x01, .imm 0x01, [0x69, 0x01], 2) ∈ Rows.adc 0x01 0x40 0x12 0xAD ∧
       (0x01 : Byte) = (Operand.imm 0x01).value s ∧
       (0x99 : Byte) = (if s.flag .t then s.read .mx (zpAddr s.x) else s.a) ∧ s.flag .d = true ∧
       (100 : Int) = ((10 * ((0x99 : Byte).toNat / 16) + (0x99 : Byte).toNat % 16 : Nat) : Int) +
         (10 * ((0x01 : Byte).toNat / 16) + (0x01 : Byte).toNat % 16 : Nat) + (s.flag .c).toNat ∧
       (0x99 : Byte).toNat / 16 ≤ 9 ∧ (0x99 : Byte).toNat % 16 ≤ 9) ∧
    (let s : State := { base with ps := 0x0D }
     (.sbcImm 0x01, .imm 0x01, [0xE9, 0x01], 2) ∈ Rows.sbc 0x01 0x40 0x12 0xAD ∧ s.flag .d = true ∧
       (-1 : Int) = ((10 * ((0x00 : Byte).toNat / 16) + (0x00 : Byte).toNat % 16 : Nat) : Int) -
         (10 * ((0x01 : Byte).toNat / 16) + (0x01 : Byte).toNat % 16 : Nat) - (1 - (s.flag .c).toNat)) := by decide

theorem witness_IncDecStep :
    (.incAcc, none, [0x3A], 2, 1) ∈ Rows.incDec 0x10 0x00 0x20 ∧
      (.decAbsX 0x00 0x20, some (.absX 0x00 0x20), [0xDE, 0x00, 0x20], 7, 255) ∈ Rows.incDec 0x10 0x00 0x20 := by decide

theorem witness_IndexSteps : Instr.dey = .dey ∧ State.y = State.y ∧ (0x88 : Byte) = 0x88 ∧ 255 = 255 :=
  ⟨rfl, rfl, rfl, rfl⟩

theorem witness_MulMultiplies :
    base.cfg.hasMulDiv = true ∧ (0x00 : Byte) = base.read .operand ((EaMode.zpX 0x40).ea base) := by decide

/-- 12345 by 100, where the quotient fits; and 0xFF00 by 0xFF, where it is 256. -/
theorem witness_DivDivides :
    (let s : State := { base with a := 0x64, mem := [(0x0040, 0x39), (0x0041, 0x30)] }
     s.cfg.hasMulDiv = true ∧ (0x0040 : Addr).toNat = ((0x40 : Byte).toNat + s.x.toNat) % 256 ∧
       (0x0041 : Addr).toNat = ((0x40 : Byte).toNat + s.x.toNat + 1) % 256 ∧
       12345 = 256 * (s.read .dividendHi 0x0041).toNat + (s.read .operand 0x0040).toNat ∧
       s.a.toNat ≠ 0 ∧ 12345 / s.a.toNat ≤ 255) ∧
    (let s : State := { base with a := 0xFF, mem := [(0x0041, 0xFF)] }
     s.cfg.hasMulDiv = true ∧ 0xFF00 = 256 * (s.read .dividendHi 0x0041).toNat + (s.read .operand 0x0040).toNat ∧
       ¬ 0xFF00 / s.a.toNat ≤ 255) := by decide

theorem witness_LogicBitwise :
    (.oraImm 0x80, .imm 0x80, [0x09, 0x80], 2) ∈ Rows.ora 0x80 0x10 0x00 0x20 ∧
      (0x80 : Byte) = (Operand.imm 0x80).value base ∧
      (0x00 : Byte) = (if base.flag .t then base.read .mx (zpAddr base.x) else base.a) := by decide

theorem witness_ComRrfModify : (0x00 : Byte) = base.read .operand ((EaMode.zp 0x10).ea base) := by decide

theorem witness_BitTstFlags :
    (.bitAbs 0x00 0x20, .abs 0x00 0x20, [0x2C, 0x00, 0x20], 4) ∈ Rows.bitTst 0x10 0x00 0x20 ∧
      (.tstZp 0x10, .zp 0x10, [0x64, 0x10], 3) ∈ Rows.bitTst 0x10 0x00 0x20 ∧
      (0x00 : Byte) = base.read .operand ((EaMode.zp 0x10).ea base) := by decide

theorem witness_Compares :
    ((.cmpImm 0x10, .imm 0x10, [0xC9, 0x10], 2) ∈ Rows.cmp 0x10 0x10 0x00 0x20 ∧
        (0x00 : Byte) = (if base.flag .t then base.read .mx (zpAddr base.x) else base.a)) ∧
      (.cpyImm 0x10, .imm 0x10, [0xC0, 0x10], 2) ∈ Rows.cpy 0x10 0x10 0x00 0x20 ∧
      (0x10 : Byte) = (Operand.imm 0x10).value base := by decide

theorem witness_ShiftsAndRotates :
    ((.rorZp 0x10, some (.zp 0x10), [0x66, 0x10], 5) ∈ Rows.ror 0x10 0x00 0x20 ∧
        (0 : Nat) = 0 / 2 + 128 * 0 ∧ (0 : Nat) = 0 % 2) ∧
      (0 : Nat) = (base.valueAt (some (.zp 0x10))).toNat ∧ (0 : Nat) = (base.flag .c).toNat := by decide

theorem witness_ClbSebWriteBit :
    7 < 8 ∧ (.clbZp 7 0x10, some (.zp 0x10), false, [0xFF, 0x10], 5) ∈ Rows.clbSeb 7 0x10 ∧
      (.sebAcc 0, none, true, [0x0B], 2) ∈ Rows.clbSeb 0 0x10 := by decide

theorem witness_FlagInstructions : (.clv, .v, false, 0xB8) ∈ Rows.flagInstr := by decide

/-- A pointer at the last byte of a page but one; and one at the last byte, which is refused. -/
theorem witness_JmpJumps :
    (0xFE : Byte) ≠ 0xFF ∧ (0x20FE : Addr).toNat = 256 * (0x20 : Byte).toNat + (0xFE : Byte).toNat ∧
      (0x20FF : Addr).toNat = (0x20FE : Addr).toNat + 1 ∧ (0xFF : Byte) = 0xFF ∧
      (0x00FF : Addr).toNat = (0xFF : Byte).toNat ∧ (0x0000 : Addr).toNat = ((0xFF : Byte).toNat + 1) % 256 := by decide

theorem witness_Branches :
    (.bra 0x80, true, 0x80, 4) ∈ Rows.branch base 0x80 ∧ (.bne 0xFC, true, 0xD0, 4) ∈ Rows.branch base 0xFC ∧
      (.beq 0x10, false, 0xF0, 2) ∈ Rows.branch base 0x10 := by decide

theorem witness_BitBranches :
    7 < 8 ∧ (0x00 : Byte) = base.read .operand ((EaMode.zp 0x04).ea base) ∧
      (∀ x ∈ base.prev.requestBytes, x.1 ≠ (0x04 : Byte).toNat) ∧
      (.bbcZp 7 0x04 0xF1, true, [0xF7, 0x04, 0xF1], 5) ∈ Rows.bitBranch base 7 0x04 0xF1 0x00 := by decide

/-- CLB on the request bit of source k, which is 0 already; and BRK with the stack in page 0 over the request byte. -/
theorem witness_StaleRequestBranches :
    (let s : State := { atBoundary 0x04 0x00 0x00 with mem := [(0x1234, 0x1F), (0x1235, 0x3C)] }
     s.Quiet ∧ s.run = .running ∧ s.fetch = .ok (.clbZp 0 0x3C) ∧ (Instr.clbZp 0 0x3C = .brk → s.firstPending = none) ∧
       (∃ t, step s = .next t ∧ ({ t with x := 1 } : State).prev = t.prev) ∧ srcK ∈ s.cfg.sources ∧
       srcK.request.addr.toNat = (0x3C : Byte).toNat ∧ srcK.request.addr ∈ storedAddrs (.clbZp 0 0x3C) s.popInput ∧
       writable s.cfg srcK.request.addr = true ∧ 7 < 8) ∧
    (let s : State := { atBoundary 0x04 0x00 0x00 with sp := 0x3E, mem := [] }
     s.Quiet ∧ s.fetch = .ok .brk ∧ s.firstPending = none ∧ (∃ t, step s = .next t) ∧
       srcK.request.addr ∈ storedAddrs .brk s.popInput) :=
  ⟨⟨⟨by decide, by decide⟩, rfl, rfl, fun _ => rfl, ⟨_, rfl, rfl⟩, by decide, by decide, by decide, by decide, by decide⟩,
    ⟨by decide, by decide⟩, rfl, rfl, ⟨_, rfl⟩, by decide⟩

/-- The stack holds no bit of the CPU; the last byte of the instruction is not on the stack, and is on it. -/
theorem witness_JsrCalls :
    (.jsrAbs 0x00 0x30, [0x20, 0x00, 0x30], 6) ∈ Rows.jsr 0x40 0x00 0x30 ∧ base.StackSafe 2 ∧
      holds (exec (.jsrAbs 0x00 0x30) base) (fun t => t.peek (base.pc + 2) == base.peek (base.pc + 2)) = true ∧
      (let s : State := { base with pc := 0x01FD, cfg := page1 }
       holds (exec (.jsrAbs 0x00 0x30) s) (fun t => t.peek (s.pc + 2) != s.peek (s.pc + 2)) = true) ∧
      (0x0040 : Addr).toNat = (0x40 : Byte).toNat ∧ (0x0041 : Addr).toNat = ((0x40 : Byte).toNat + 1) % 256 :=
  ⟨by decide, by unfold State.StackSafe; decide, by decide, by decide, by decide, by decide⟩

/-- `S` at its last value but one. -/
theorem witness_RtsRtiReturn :
    let s : State := { base with sp := 0xFE }
    (0xFF : Byte).toNat = (s.sp.toNat + 1) % 256 ∧ (0x00 : Byte).toNat = (s.sp.toNat + 2) % 256 ∧
      (0x01 : Byte).toNat = (s.sp.toNat + 3) % 256 := by decide

theorem witness_ReturnsResume : base.StackSafe 2 ∧ base.StackSafe 3 ∧ base.firstPending = none :=
  ⟨by unfold State.StackSafe; decide, by unfold State.StackSafe; decide, rfl⟩

theorem witness_BrkBreaks : base.firstPending = none := rfl

/-- Source k pending on a product with each of the three behaviours. -/
theorem witness_BrkWithPending :
    (let s : State := atBoundary 0x04 0x01 0x01
     s.firstPending = some srcK ∧ s.cfg.brkWithPending = .stayPending ∧ s.StackSafe 3) ∧
    (let s : State := { atBoundary 0x04 0x01 0x01 with cfg := { twoSources with brkWithPending := .sourceVector } }
     s.firstPending = some srcK ∧ s.cfg.brkWithPending = .sourceVector ∧ srcK.request.addr ≠ srcK.vector ∧
       srcK.request.addr ≠ srcK.vector + 1 ∧ writable s.cfg srcK.request.addr = true ∧ s.StackSafe 3) ∧
    (let s : State := { atBoundary 0x04 0x01 0x01 with cfg := { twoSources with brkWithPending := .entryAfter } }
     s.firstPending = some srcK ∧ s.cfg.brkWithPending = .entryAfter ∧
       s.cfg.stackPage ≠ .selectionBit srcK.request ∧ writable s.cfg srcK.request.addr = true ∧ s.StackSafe 3 ∧
       s.takeBreak.StackSafe 3) := by
  unfold State.StackSafe
  decide

theorem witness_WitStpNop :
    base.cfg.stpMode = .enabled ∧ ({ referenceProduct with stpMode := .disabled } : Product).stpMode = .disabled ∧
      ({ referenceProduct with stpMode := .absent } : Product).stpMode = .absent := ⟨rfl, rfl, rfl⟩

/-- DIV right after PLP, its operand on no memory; and STP. -/
theorem witness_AbsentInstructionsRefused :
    (let s : State :=
       { base with
         pc := 0x0FFF, prev := { Prev.other with plp := true }, cfg := { mapped with hasMulDiv := false }
         mem := [(0x0FFF, 0xE2)] }
     s.Quiet ∧ s.run = .running ∧ s.fetchable s.pc = true ∧ s.peek s.pc = 0xE2 ∧ s.cfg.hasMulDiv = false ∧
       s.fetchable (s.pc + 1) = false) ∧
    (let s : State := { base with cfg := { referenceProduct with stpMode := .absent }, mem := [(0x1000, 0x42)] }
     s.Quiet ∧ s.run = .running ∧ s.fetchable s.pc = true ∧ s.peek s.pc = 0x42 ∧ s.cfg.stpMode = .absent) :=
  ⟨⟨⟨by decide, by decide⟩, rfl, by decide, by decide, rfl, by decide⟩,
    ⟨⟨by decide, by decide⟩, rfl, by decide, by decide, rfl⟩⟩

/-- PLP, then LDA; and PLP, then NOP. -/
theorem witness_PlpNeedsNop :
    (let s : State := { base with sp := 0xFE, mem := [(0x00FF, 0xC3), (0x1000, 0x28), (0x1001, 0xA9)] }
     s.Quiet ∧ s.run = .running ∧ s.fetch = .ok .plp ∧
       ∃ t, step s = .next t ∧ t.Quiet ∧ t.fetch = .ok (.ldaImm 0x00) ∧ Instr.ldaImm 0x00 ≠ .nop) ∧
    (let s : State := { base with sp := 0xFE, mem := [(0x00FF, 0xC3), (0x1000, 0x28), (0x1001, 0xEA)] }
     s.Quiet ∧ s.run = .running ∧ s.fetch = .ok .plp ∧ ∃ t, step s = .next t ∧ t.Quiet ∧ t.fetch = .ok .nop) :=
  ⟨⟨⟨by decide, by decide⟩, rfl, rfl, _, rfl, ⟨by decide, by decide⟩, rfl, by decide⟩,
    ⟨⟨by decide, by decide⟩, rfl, rfl, _, rfl, ⟨by decide, by decide⟩, rfl⟩⟩

/-- ADC, then CLC, with D = 1 and with D = 0. -/
theorem witness_DecimalFlagHazard :
    (let s : State := { base with ps := 0x0C, mem := [(0x1000, 0x69), (0x1001, 0x01), (0x1002, 0x18)] }
     s.Quiet ∧ s.run = .running ∧ s.fetch = .ok (.adcImm 0x01) ∧ (Instr.adcImm 0x01).mnemonic = .adc ∧
       s.flag .d = true ∧ ∃ t, step s = .next t ∧ t.Quiet ∧ t.fetch = .ok .clc) ∧
    (let s : State := { base with mem := [(0x1000, 0x69), (0x1001, 0x01), (0x1002, 0x18)] }
     s.Quiet ∧ s.run = .running ∧ s.fetch = .ok (.adcImm 0x01) ∧ s.flag .d = false ∧
       ∃ t, step s = .next t ∧ t.Quiet ∧ t.fetch = .ok .clc) :=
  ⟨⟨⟨by decide, by decide⟩, rfl, rfl, rfl, by decide, _, rfl, ⟨rfl, rfl⟩, rfl⟩,
    ⟨⟨by decide, by decide⟩, rfl, rfl, by decide, _, rfl, ⟨rfl, rfl⟩, rfl⟩⟩

/-- Two requests at one boundary of a running CPU; and in the stop state, where one of the sources needs the clock. -/
theorem witness_RequestsArrive :
    (let s : State := { atBoundary 0x81 0x04 0x01 with inputs := [{ requests := [1, 0] }] }
     s.landed.peek 0x003C = 0x07 ∧ writable s.cfg 0x003C = true) ∧
    (let s : State := { atBoundary 0x81 0x00 0x01 with run := .stop, inputs := [{ requests := [1, 0] }] }
     s.landed.peek 0x003C = 0x01) := by decide

/-- Reads, a write and the end at each side of an arrival's moment; the request byte in RAM and on a device register. -/
theorem witness_RequestsInsideInstruction :
    (let r : Arrival := { source := 0, writes := 0, turn := 2 }
     let q : Arrival := { source := 1, writes := 1, turn := 0 }
     let s : State := { atBoundary 0x04 0x80 0x00 with bus := { arrivals := [r, q] } }
     classOf s.cfg 0x003C = .ram ∧ s.read .operand 0x003C = 0x81 ∧ s.read .pointerHi 0x003C = 0x80 ∧
       writable s.cfg 0x003C = true ∧ (s.write 0x003C 0x40).bus.arrivals = [q] ∧
       (s.write 0x0040 0x40).bus.arrivals = [r, q] ∧ (s.write 0x0040 0x40).read .pointerLo 0x003C = 0x83 ∧
       s.settle.peek 0x003C = 0x83) ∧
    (let p : Product := { twoSources with memmap := [{ first := 0x0000, last := 0xFFFF, cls := .sfr }] }
     classOf p 0x003C = .sfr ∧ ∃ l ∈ controlBits p, l.addr = 0x003C ∧ (l.bit : Nat) = 0) := by decide

/-- Both sources pending; only the second; a delayed boundary; a raced source; and a boundary with I = 1. -/
theorem witness_AcceptanceTest :
    (atBoundary 0x81 0x03 0x03).accepted {} = some srcK ∧ (atBoundary 0x81 0x02 0x03).accepted {} = some srcJ ∧
      (atBoundary 0x81 0x03 0x03).accepted { delayed := true } = none ∧
      ({ atBoundary 0x81 0x00 0x01 with prev := { Prev.other with raced := [srcK] } } : State).accepted
        { racedTaken := [srcK] } = some srcK ∧
      (atBoundary 0x85 0x01 0x01).input.reset = none ∧ (atBoundary 0x85 0x01 0x01).flag .i = true := by decide

/-- LDM that clears the request bit of a source and sets its enable bit in the same byte, after a source of higher
priority that does not request. -/
theorem witness_RacedWriteAdmitsBoth :
    let k : IntSource := { srcK with enable := ⟨0x003C, 4⟩ }
    let s : State :=
      { base with
        ps := 0x00, cfg := { referenceProduct with sources := [srcJ, k] }
        mem := [(0x003C, 0x01), (0x1000, 0x3C), (0x1001, 0x10), (0x1002, 0x3C)] }
    s.Quiet ∧ s.run = .running ∧ s.fetch = .ok (.ldmZp 0x10 0x3C) ∧
      s.cfg.sources[1]? = some k ∧ k.request.addr = k.enable.addr ∧ s.flag .i = false ∧ s.bitAt k.request = true ∧
      s.bitAt k.enable = false ∧
      ∃ t, step s = .next t ∧ t.flag .i = false ∧ t.bitAt k.request = false ∧ t.bitAt k.enable = true ∧
        ∀ m < 1, ∀ j : IntSource, s.cfg.sources[m]? = some j → t.isAcceptable j = false :=
  ⟨⟨by decide, by decide⟩, rfl, rfl, rfl, rfl, by decide, by decide, by decide,
    _, rfl, by decide, by decide, by decide, fun m hm j hj => by
      obtain rfl : m = 0 := by omega
      cases hj
      rfl⟩

/-- Vectors in ROM, the stack in RAM, a request inside the entry; and a product whose stack page is a register bit. -/
theorem witness_InterruptEntry :
    (let s : State :=
       { atBoundary 0x81 0x01 0x01 with
         cfg := mapped, inputs := [{ during := [{ source := 0, writes := 3, turn := 1 }] }] }
     s.input.reset = none ∧ s.landed.accepted s.input = some srcK ∧ s.cfg.stackPage ≠ .selectionBit srcK.request ∧
       writable s.cfg srcK.request.addr = true ∧ s.landed.StackSafe 3 ∧ s.Plain srcK.vector ∧
       s.Plain (srcK.vector + 1) ∧
       ∃ r ∈ s.input.during, ∃ j, s.cfg.sources[r.source]? = some j ∧ j.request = srcK.request) ∧
    (let s : State :=
       { atBoundary 0x81 0x01 0x01 with cfg := { twoSources with stackPage := .selectionBit ⟨0x003C, 7⟩ } }
     s.landed.accepted s.input = some srcK ∧ s.cfg.stackPage ≠ .selectionBit srcK.request ∧ s.landed.StackSafe 3 ∧
       s.input.during = []) := by
  unfold State.StackSafe State.Plain
  exact ⟨⟨by decide, by decide, by decide, by decide, by decide, by decide, by decide, _, List.mem_singleton_self _, _, rfl, rfl⟩,
    by decide, by decide, by decide, by decide⟩

theorem witness_EntryThenRtiResumes :
    let s : State := { atBoundary 0x81 0x01 0x01 with cfg := mapped }
    s.input.reset = none ∧ s.landed.accepted s.input = some srcK ∧
      (∀ j ∈ s.cfg.sources, s.cfg.stackPage ≠ .selectionBit j.request) ∧ s.landed.StackSafe 3 := by
  unfold State.StackSafe
  decide

/-- A request that cannot be accepted, on a product of each choice; and no request. -/
theorem witness_StandbyStaysOrWakes :
    (let s : State := { atBoundary 0x04 0x00 0x01 with run := .wait, inputs := [{ requests := [0] }] }
     s.input.reset = none ∧ s.run ≠ .running ∧ s.landed.accepted s.input = none ∧ s.cfg.wakeWithISet = .stay) ∧
    (let s : State :=
       { atBoundary 0x04 0x00 0x01 with
         run := .stop, inputs := [{ requests := [0] }], cfg := { twoSources with wakeWithISet := .resume } }
     s.input.reset = none ∧ s.run ≠ .running ∧ s.landed.accepted s.input = none ∧ s.cfg.wakeWithISet = .resume ∧
       ∃ k ∈ s.cfg.sources, s.bitAt k.request = false ∧ s.landed.bitAt k.request = true ∧
         s.landed.isAcceptable k = false) ∧
    (let s : State := { atBoundary 0x04 0x00 0x01 with run := .wait, cfg := { twoSources with wakeWithISet := .resume } }
     s.landed.accepted s.input = none ∧
       ∀ k ∈ s.cfg.sources, s.landed.bitAt k.request = true → s.bitAt k.request = true) := by decide

/-- The reset vector in RAM, one byte of RAM given with the reset and one not. -/
theorem witness_ResetOverridesAll :
    let d : ResetDraw := { a := 1, x := 2, y := 3, sp := 4, ps := 0xFB, ram := [(0x0040, 0x54), (0x0040, 0x55)] }
    let s : State := { atBoundary 0x81 0x01 0x01 with run := .stop, cfg := mapped, inputs := [{ reset := some d }] }
    s.input.reset = some d ∧ classOf s.cfg 0xFFF9 = .rom ∧ classOf s.cfg 0x0040 = .ram ∧ classOf s.cfg 0x1000 = .sfr ∧
      (d.ram.reverse.lookup 0x0040).getD 0x00 = 0x55 ∧ (d.ram.reverse.lookup 0x0041).getD 0x00 = 0x00 ∧
      s.fetchable s.cfg.resetVector = true ∧ s.fetchable (s.cfg.resetVector + 1) = true ∧ Machine.Flag.d ≠ .i := by
  decide

end Sys2Proof.Tests
end

/-! What every instruction keeps of the state behind the registers, where it leaves PC, and from these O10 and O15. -/

namespace Sys2Proof.Machine

open Sys2Proof Sys2Proof.Config

/-! ### What no instruction touches -/

/-- The history, the product, the coming inputs and the step's number of two states are the same. -/
def SameHidden (s t : State) : Prop :=
  t.prev = s.prev ∧ t.cfg = s.cfg ∧ t.inputs = s.inputs ∧ t.draws = s.draws

theorem SameHidden.trans {s t u : State} (h : SameHidden s t) (k : SameHidden t u) : SameHidden s u := by
  obtain ⟨hp, hc, hi, hd⟩ := h
  obtain ⟨kp, kc, ki, kd⟩ := k
  exact ⟨kp.trans hp, kc.trans hc, ki.trans hi, kd.trans hd⟩

theorem sameHidden_branch (s : State) (n : Nat) (rr : Byte) (k : Bool) : SameHidden s (s.branch n rr k) := by
  simp [SameHidden]

theorem sameHidden_jump (s : State) (target : Addr) : SameHidden s (s.jump target) := ⟨rfl, rfl, rfl, rfl⟩

theorem sameHidden_call_jump (s : State) (len : Nat) (target : Addr) : SameHidden s ((s.call len).jump target) := by
  simp [SameHidden, State.call, State.push16]

theorem sameHidden_takeException (s : State) (brk : Bool) (ret v : Addr) (lo hi : Draw) :
    SameHidden s (s.takeException brk ret v lo hi) := by
  simp [SameHidden]

theorem sameHidden_setBitAt (s : State) (l : BitLoc) (b : Bool) : SameHidden s (s.setBitAt l b) := by
  simp [SameHidden]

theorem sameHidden_enterInterrupt (s : State) (k : IntSource) : SameHidden s (s.enterInterrupt k) := by
  simp [SameHidden, State.enterInterrupt_eq]

theorem sameHidden_takeBreak (s : State) : SameHidden s s.takeBreak := sameHidden_takeException s _ _ _ _ _

/-- BRK with a source pending, in each of the three behaviours of R319. -/
theorem sameHidden_takeBreakPending (s : State) (k : IntSource) : SameHidden s (s.takeBreakPending k) := by
  unfold State.takeBreakPending
  split
  · exact sameHidden_takeBreak s
  · exact (sameHidden_takeException s _ _ _ _ _).trans (sameHidden_setBitAt _ _ _)
  · exact (sameHidden_takeBreak s).trans (sameHidden_enterInterrupt _ k)

/-! ### The instructions that transfer no control -/

/-- `t` is `s` after an instruction of `n` bytes that transfers no control: PC stands `n` further on, modulo 65536 (R25),
and nothing hidden has changed. -/
def RunsOn (n : Nat) (s t : State) : Prop := t.pc = s.pc + BitVec.ofNat 16 n ∧ SameHidden s t

/-- An instruction that ends with the advance of PC runs on, if what it does before keeps PC and the hidden fields. -/
theorem runsOn_advance {s t : State} (n : Nat) (hpc : t.pc = s.pc) (h : SameHidden s t) : RunsOn n s (t.advance n) :=
  ⟨by rw [State.advance_pc, hpc], h⟩

theorem runsOn_load (s : State) (o : Operand) : RunsOn o.len s (s.load o) :=
  runsOn_advance _ (by simp) (by simp [SameHidden])

theorem runsOn_store (s : State) (m : EaMode) (v : Byte) : RunsOn m.len s (s.store m v) :=
  runsOn_advance _ (by simp) (by simp [SameHidden])

theorem runsOn_write (s : State) (a : Addr) (v : Byte) (n : Nat) : RunsOn n s ((s.write a v).advance n) :=
  runsOn_advance _ (by simp) (by simp [SameHidden])

theorem runsOn_push (s : State) (v : Byte) (n : Nat) : RunsOn n s ((s.push v).advance n) :=
  runsOn_advance _ (by simp) (by simp [SameHidden])

theorem runsOn_adc (s : State) (o : Operand) : RunsOn o.len s (s.adc o) :=
  runsOn_advance _ (by simp) (by simp [SameHidden])

theorem runsOn_sbc (s : State) (o : Operand) : RunsOn o.len s (s.sbc o) :=
  runsOn_advance _ (by simp) (by simp [SameHidden])

theorem runsOn_logic (s : State) (o : Operand) (f : Byte → Byte → Byte) : RunsOn o.len s (s.logic o f) :=
  runsOn_advance _ (by simp) (by simp [SameHidden])

theorem runsOn_modifyNZ (s : State) (m : EaMode) (f : Byte → Byte) : RunsOn m.len s (s.modifyNZ m f) :=
  runsOn_advance _ (by simp) (by simp [SameHidden])

theorem runsOn_shiftMem (s : State) (m : EaMode) (f : Byte → Bool → ShiftOut) : RunsOn m.len s (s.shiftMem m f) :=
  runsOn_advance _ (by simp) (by simp [SameHidden])

/-- MUL and DIV push one byte and write A (R188, R189). -/
theorem runsOn_push_setA (s : State) (p q : Byte) : RunsOn 2 s ({ s.push p with a := q }.advance 2) :=
  runsOn_advance _ (by simp) (by simp [SameHidden])

/-- An instruction that transfers no control leaves PC at the next instruction and changes nothing hidden. -/
theorem exec_runsOn (i : Instr) (s t : State) (h : exec i s = .next t) (hi : transfersControl i.mnemonic = false) :
    RunsOn i.length s t := by
  cases i
  case jmpAbs | jmpInd | jmpZpInd | bra | jsrAbs | jsrZpInd | jsrSpecial | bbcAcc | bbcZp | bbsAcc | bbsZp | bcc | bcs |
      bne | beq | bpl | bmi | bvc | bvs | rts | rti | brk => nomatch hi
  case mulZpX zz =>
    change (if s.cfg.hasMulDiv then Host.Outcome.next _ else _) = _ at h
    split at h <;> cases h
    exact runsOn_push_setA s _ _
  case divZpX zz =>
    change (if s.cfg.hasMulDiv then Host.Outcome.next _ else _) = _ at h
    split at h <;> cases h
    obtain ⟨p, q, e⟩ := State.divideBy_eq s zz
    rw [e]
    exact runsOn_push_setA s p q
  case stp =>
    change execStp s = _ at h
    unfold execStp at h
    split at h <;> cases h <;> exact ⟨rfl, rfl, rfl, rfl, rfl⟩
  case ldaImm | ldaZp | ldaZpX | ldaAbs | ldaAbsX | ldaAbsY | ldaIndX | ldaIndY =>
    obtain rfl := next_inj h
    exact runsOn_load s _
  case adcImm | adcZp | adcZpX | adcAbs | adcAbsX | adcAbsY | adcIndX | adcIndY =>
    obtain rfl := next_inj h
    exact runsOn_adc s _
  case sbcImm | sbcZp | sbcZpX | sbcAbs | sbcAbsX | sbcAbsY | sbcIndX | sbcIndY =>
    obtain rfl := next_inj h
    exact runsOn_sbc s _
  case andImm | andZp | andZpX | andAbs | andAbsX | andAbsY | andIndX | andIndY | oraImm | oraZp | oraZpX | oraAbs |
      oraAbsX | oraAbsY | oraIndX | oraIndY | eorImm | eorZp | eorZpX | eorAbs | eorAbsX | eorAbsY | eorIndX |
      eorIndY =>
    obtain rfl := next_inj h
    exact runsOn_logic s _ _
  case staZp | stxZp | styZp | staZpX | styZpX | stxZpY | staAbs | stxAbs | styAbs | staAbsX | staAbsY | staIndX |
      staIndY =>
    obtain rfl := next_inj h
    exact runsOn_store s _ _
  case incZp | decZp | comZp | incZpX | decZpX | incAbs | decAbs | incAbsX | decAbsX =>
    obtain rfl := next_inj h
    exact runsOn_modifyNZ s _ _
  case aslZp | lsrZp | rolZp | rorZp | aslZpX | lsrZpX | rolZpX | rorZpX | aslAbs | lsrAbs | rolAbs | rorAbs | aslAbsX |
      lsrAbsX | rolAbsX | rorAbsX =>
    obtain rfl := next_inj h
    exact runsOn_shiftMem s _ _
  case ldmZp | rrfZp | clbZp | sebZp =>
    obtain rfl := next_inj h
    exact runsOn_write s _ _ _
  case pha | php =>
    obtain rfl := next_inj h
    exact runsOn_push s _ _
  case wit =>
    obtain rfl := next_inj h
    exact ⟨rfl, rfl, rfl, rfl, rfl⟩
  -- The others update registers and flags alone before PC advances.
  all_goals
    obtain rfl := next_inj h
    exact runsOn_advance _ (by simp) (by simp [SameHidden])

/-! ### Every instruction -/

/-- An instruction that transfers control changes nothing hidden. -/
theorem exec_transfer_sameHidden (i : Instr) (s t : State) (h : exec i s = .next t)
    (hi : transfersControl i.mnemonic = true) : SameHidden s t := by
  cases i
  case jmpAbs | jmpZpInd =>
    obtain rfl := next_inj h
    exact sameHidden_jump s _
  case jmpInd ll hh =>
    change (if ll = 0xFF then _ else Host.Outcome.next _) = _ at h
    split at h <;> cases h
    exact sameHidden_jump s _
  case jsrAbs | jsrZpInd | jsrSpecial =>
    obtain rfl := next_inj h
    exact sameHidden_call_jump s _ _
  case bra | bcc | bcs | bne | beq | bpl | bmi | bvc | bvs | bbcAcc | bbcZp | bbsAcc | bbsZp =>
    obtain rfl := next_inj h
    exact sameHidden_branch s _ _ _
  case rts | rti =>
    obtain rfl := next_inj h
    exact ⟨rfl, rfl, rfl, rfl⟩
  case brk =>
    change execBrk s = _ at h
    unfold execBrk at h
    split at h <;> cases h
    · exact sameHidden_takeBreakPending s _
    · exact sameHidden_takeBreak s
  all_goals nomatch hi

/-- No instruction changes anything hidden. -/
theorem exec_sameHidden (i : Instr) (s t : State) (h : exec i s = .next t) : SameHidden s t := by
  cases hi : transfersControl i.mnemonic
  · exact (exec_runsOn i s t h hi).2
  · exact exec_transfer_sameHidden i s t h hi

/-! ### The obligations -/

/-- Settles O10, over the four things a step can be: each keeps the product and numbers the next step, and the input is
used up as the boundary begins. -/
theorem stepKeepsProduct : Obligations.StepKeepsProduct := by
  unfold Obligations.StepKeepsProduct
  intro s t h
  obtain ⟨d, -, rfl⟩ | ⟨k, -, -, rfl⟩ | ⟨-, -, -, rfl⟩ | ⟨-, -, -, i, u, -, -, hu, rfl⟩ := step_cases h
  · exact ⟨rfl, rfl, rfl⟩
  · simp
  · simp
  · obtain ⟨-, hcfg, hinputs, hdraws⟩ := exec_sameHidden i s.landed u hu
    simp [hcfg, hinputs, hdraws]

/-- Settles O15: PC after the instruction is `exec_runsOn`'s, read as a number. -/
theorem sequentialAdvance : Obligations.SequentialAdvance := by
  unfold Obligations.SequentialAdvance
  intro i s t h hi
  obtain ⟨hpc, -⟩ := exec_runsOn i s t h hi
  rw [hpc, BitVec.toNat_add, BitVec.toNat_ofNat, Nat.add_mod_mod]

end Sys2Proof.Machine

/-! What every instruction may write of the registers, the flags and the run state, what it keeps of the memory, and
from these the frames O11, O12 and O14, the stack's addresses O18, and the invariant O8 and O60. -/

namespace Sys2Proof.Machine

open Sys2Proof Sys2Proof.Config

/-! ### What an instruction may write -/

/-- Which flags and registers may be written, and whether the run state may. -/
structure Writes where
  flags : List Flag := []
  a : Bool := false
  x : Bool := false
  y : Bool := false
  sp : Bool := false
  run : Bool := false

/-- From `s` to `t`, nothing but what `w` allows is written. -/
def WritesOnly (w : Writes) (s t : State) : Prop :=
  SameFlagsBut s t w.flags ∧ (w.a = false → t.a = s.a) ∧ (w.x = false → t.x = s.x) ∧ (w.y = false → t.y = s.y) ∧
    (w.sp = false → t.sp = s.sp) ∧ (w.run = false → t.run = s.run)

/-- The instructions that may write the run state: WIT and STP stop the CPU, and a BRK that ends in an interrupt entry
lets it run (R45, R319). -/
def writesRun (m : Mnemonic) : Bool := m == .wit || m == .stp || m == .brk

/-- What an instruction may write at a state, by the tables of R21, R22, R23, R36 and R45. -/
def writesOf (i : Instr) (s : State) : Writes where
  flags := flagsWritten i.mnemonic
  a := writesA i s
  x := writesX i.mnemonic
  y := writesY i.mnemonic
  sp := writesS i.mnemonic
  run := writesRun i.mnemonic

theorem WritesOnly.trans {w : Writes} {s t u : State} (h : WritesOnly w s t) (k : WritesOnly w t u) :
    WritesOnly w s u := by
  obtain ⟨hf, ha, hx, hy, hs, hr⟩ := h
  obtain ⟨kf, ka, kx, ky, ks, kr⟩ := k
  exact ⟨fun f hn => (kf f hn).trans (hf f hn), fun e => (ka e).trans (ha e), fun e => (kx e).trans (hx e),
    fun e => (ky e).trans (hy e), fun e => (ks e).trans (hs e), fun e => (kr e).trans (hr e)⟩

/-! ### The flags that the writes of `PS` write -/

theorem sameFlagsBut_of_eq {s t : State} (h : ∀ f, t.flag f = s.flag f) (fs : List Flag) : SameFlagsBut s t fs :=
  fun f _ => h f

theorem sameFlagsBut_setFlag {s t : State} (h : ∀ f, t.flag f = s.flag f) (g : Flag) (b : Bool) :
    SameFlagsBut s (t.setFlag g b) [g] := fun f hf => by
  rw [State.flag_setFlag, if_neg fun e => hf (by simp [e]), h f]

theorem sameFlagsBut_setNZ {s t : State} (h : ∀ f, t.flag f = s.flag f) (v : Byte) :
    SameFlagsBut s (t.setNZ v) [.n, .z] := fun f hf => by
  cases f <;> simp_all

theorem sameFlagsBut_setArith {s t : State} (h : ∀ f, t.flag f = s.flag f) (r : ArithOut) :
    SameFlagsBut s (t.setArith r) [.n, .v, .z, .c] := fun f hf => by
  cases f <;> simp_all

theorem sameFlagsBut_setCompare {s t : State} (h : ∀ f, t.flag f = s.flag f) (d m : Byte) :
    SameFlagsBut s (t.setCompare d m) [.n, .z, .c] := fun f hf => by
  cases f <;> simp_all

theorem sameFlagsBut_setShift {s t : State} (h : ∀ f, t.flag f = s.flag f) (r : ShiftOut) :
    SameFlagsBut s (t.setShift r) [.n, .z, .c] := fun f hf => by
  cases f <;> simp_all

/-- Where the whole of `PS` may be written, no flag is held (R36: PLP, RTI). -/
theorem sameFlagsBut_all (s t : State) : SameFlagsBut s t [.n, .v, .t, .b, .d, .i, .z, .c] := fun f hf => by
  cases f <;> exact absurd hf (by decide)

/-! ### What each shared operation writes -/

theorem writesOnly_of_eq {s t : State} (w : Writes) (hf : ∀ f, t.flag f = s.flag f) (ha : t.a = s.a) (hx : t.x = s.x)
    (hy : t.y = s.y) (hs : t.sp = s.sp) (hr : t.run = s.run) : WritesOnly w s t :=
  ⟨sameFlagsBut_of_eq hf _, fun _ => ha, fun _ => hx, fun _ => hy, fun _ => hs, fun _ => hr⟩

theorem writesOnly_write (s : State) (a : Addr) (v : Byte) (n : Nat) : WritesOnly {} s ((s.write a v).advance n) :=
  writesOnly_of_eq _ (by simp) (by simp) (by simp) (by simp) (by simp) (by simp)

theorem writesOnly_branch (s : State) (n : Nat) (rr : Byte) (k : Bool) : WritesOnly {} s (s.branch n rr k) :=
  writesOnly_of_eq _ (by simp) (by simp) (by simp) (by simp) (by simp) (by simp)

theorem writesOnly_jump (s : State) (target : Addr) : WritesOnly {} s (s.jump target) :=
  writesOnly_of_eq _ (fun _ => rfl) rfl rfl rfl rfl rfl

theorem writesOnly_modifyNZ (s : State) (m : EaMode) (f : Byte → Byte) :
    WritesOnly { flags := [.n, .z] } s (s.modifyNZ m f) :=
  ⟨sameFlagsBut_setNZ (State.write_flag s _ _) _, by simp [State.modifyNZ]⟩

theorem writesOnly_shiftMem (s : State) (m : EaMode) (f : Byte → Bool → ShiftOut) :
    WritesOnly { flags := [.n, .z, .c] } s (s.shiftMem m f) :=
  ⟨sameFlagsBut_setShift (State.write_flag s _ _) _, by simp [State.shiftMem]⟩

theorem writesOnly_shiftAcc (s : State) (f : Byte → Bool → ShiftOut) :
    WritesOnly { flags := [.n, .z, .c], a := true } s (s.shiftAcc f) :=
  ⟨sameFlagsBut_setShift (s := s) (t := { s with a := _ }) (fun _ => rfl) _, by simp [State.shiftAcc]⟩

/-- A result goes to A only when T = 0 (R21, R141). -/
theorem putResult_a_of_writesA (s : State) (r : Byte) (h : (!s.flag .t) = false) : (s.putResult r).a = s.a := by
  rw [State.putResult_a, if_pos (by simpa using h)]

theorem writesOnly_load (s : State) (o : Operand) :
    WritesOnly { flags := [.n, .z], a := !s.flag .t } s (s.load o) :=
  ⟨sameFlagsBut_setNZ (State.putResult_flag s _) _, putResult_a_of_writesA s _, by simp [State.load]⟩

theorem writesOnly_logic (s : State) (o : Operand) (f : Byte → Byte → Byte) :
    WritesOnly { flags := [.n, .z], a := !s.flag .t } s (s.logic o f) :=
  ⟨sameFlagsBut_setNZ (State.putResult_flag s _) _, putResult_a_of_writesA s _, by simp [State.logic]⟩

theorem writesOnly_adc (s : State) (o : Operand) :
    WritesOnly { flags := [.n, .v, .z, .c], a := !s.flag .t } s (s.adc o) :=
  ⟨sameFlagsBut_setArith (State.putResult_flag s _) _, putResult_a_of_writesA s _, by simp [State.adc]⟩

theorem writesOnly_sbc (s : State) (o : Operand) :
    WritesOnly { flags := [.n, .v, .z, .c], a := !s.flag .t } s (s.sbc o) :=
  ⟨sameFlagsBut_setArith (State.putResult_flag s _) _, putResult_a_of_writesA s _, by simp [State.sbc]⟩

theorem writesOnly_compare (s : State) (d : Byte) (o : Operand) :
    WritesOnly { flags := [.n, .z, .c] } s (s.compare d o) :=
  ⟨sameFlagsBut_setCompare (fun _ => rfl) _ _, by simp [State.compare]⟩

theorem writesOnly_bitTest (s : State) (m : EaMode) : WritesOnly { flags := [.n, .v, .z] } s (s.bitTest m) :=
  ⟨fun f hf => by cases f <;> simp_all [State.bitTest], by simp [State.bitTest]⟩

theorem writesOnly_flagInstr (s : State) (g : Flag) (b : Bool) : WritesOnly { flags := [g] } s (s.flagInstr g b) :=
  ⟨sameFlagsBut_setFlag (fun _ => rfl) g b, by simp [State.flagInstr]⟩

/-! A register that takes a value, whose N and Z go to the flags. -/

theorem writesOnly_setA_setNZ (s : State) (r : Byte) (n : Nat) :
    WritesOnly { flags := [.n, .z], a := true } s (({ s with a := r }.setNZ r).advance n) :=
  ⟨sameFlagsBut_setNZ (t := { s with a := r }) (fun _ => rfl) r, by simp⟩

theorem writesOnly_setX_setNZ (s : State) (r : Byte) (n : Nat) :
    WritesOnly { flags := [.n, .z], x := true } s (({ s with x := r }.setNZ r).advance n) :=
  ⟨sameFlagsBut_setNZ (t := { s with x := r }) (fun _ => rfl) r, by simp⟩

theorem writesOnly_setY_setNZ (s : State) (r : Byte) (n : Nat) :
    WritesOnly { flags := [.n, .z], y := true } s (({ s with y := r }.setNZ r).advance n) :=
  ⟨sameFlagsBut_setNZ (t := { s with y := r }) (fun _ => rfl) r, by simp⟩

/-- TST sets N and Z and stores nothing (R206). -/
theorem writesOnly_test (s : State) (v : Byte) (n : Nat) : WritesOnly { flags := [.n, .z] } s ((s.setNZ v).advance n) :=
  ⟨sameFlagsBut_setNZ (fun _ => rfl) v, by simp⟩

/-- CLB and SEB on A (R231, R232). -/
theorem writesOnly_bitAcc (s : State) (k : Nat) (b : Bool) : WritesOnly { a := true } s (s.bitAcc k b) :=
  ⟨fun _ _ => rfl, by simp [State.bitAcc]⟩

/-- `S` and PC are written, and nothing else that is counted. -/
theorem writesOnly_setSp (s : State) (v : Byte) (p : Addr) : WritesOnly { sp := true } s { s with sp := v, pc := p } :=
  ⟨fun _ _ => rfl, by simp⟩

/-- PLA moves `S`, and A takes the pulled byte (R167). -/
theorem writesOnly_pullA (s : State) (d : Draw) (r : Byte) (n : Nat) :
    WritesOnly { flags := [.n, .z], a := true, sp := true } s (({ (s.pull d).2 with a := r }.setNZ r).advance n) :=
  ⟨sameFlagsBut_setNZ (t := { (s.pull d).2 with a := r }) (fun _ => rfl) r, by simp⟩

/-- One byte is pushed: `S` moves (R23, R64). -/
theorem writesOnly_push (s : State) (v : Byte) : WritesOnly { sp := true } s (s.push v) := by
  simp [WritesOnly, SameFlagsBut]

/-- MUL and DIV push one byte and write A (R188, R189). -/
theorem writesOnly_push_setA (s : State) (p q : Byte) :
    WritesOnly { a := true, sp := true } s ({ s.push p with a := q }.advance 2) :=
  ⟨sameFlagsBut_of_eq (State.push_flag s p) _, by simp⟩

theorem writesOnly_call_jump (s : State) (len : Nat) (target : Addr) :
    WritesOnly { sp := true } s ((s.call len).jump target) :=
  (writesOnly_push s _).trans (writesOnly_push _ _)

/-! ### What BRK writes -/

/-- Everything BRK may write: B, I, `S`, and the run state where an interrupt entry follows (R281, R319). -/
def breakWrites : Writes := { flags := [.b, .i], sp := true, run := true }

theorem writesOnly_takeException (s : State) (brk : Bool) (ret v : Addr) (lo hi : Draw) :
    WritesOnly breakWrites s (s.takeException brk ret v lo hi) := by
  refine ⟨fun f hf => ?_, by simp [breakWrites]⟩
  have hps : (s.takeException brk ret v lo hi).ps = ((s.setFlag .b brk).setFlag .i true).ps := by
    rw [State.takeException_ps, State.saveContext_ps]
  rw [State.flag_congr hps f]
  cases f <;> simp_all [breakWrites]

theorem writesOnly_setBitAt (w : Writes) (s : State) (l : BitLoc) (b : Bool) : WritesOnly w s (s.setBitAt l b) :=
  writesOnly_of_eq w (by simp) (by simp) (by simp) (by simp) (by simp) (by simp)

theorem writesOnly_enterInterrupt (s : State) (k : IntSource) : WritesOnly breakWrites s (s.enterInterrupt k) := by
  obtain ⟨hf, ha, hx, hy, hs, -⟩ := (writesOnly_setBitAt breakWrites s k.request false).trans
    (writesOnly_takeException _ false s.pc k.vector .irqVectorLo .irqVectorHi)
  exact ⟨hf, ha, hx, hy, hs, nofun⟩

theorem writesOnly_takeBreak (s : State) : WritesOnly breakWrites s s.takeBreak :=
  writesOnly_takeException s _ _ _ _ _

/-- BRK with a source pending, in each of the three behaviours of R319. -/
theorem writesOnly_takeBreakPending (s : State) (k : IntSource) : WritesOnly breakWrites s (s.takeBreakPending k) := by
  unfold State.takeBreakPending
  split
  · exact writesOnly_takeBreak s
  · exact (writesOnly_takeException s _ _ _ _ _).trans (writesOnly_setBitAt _ _ _ _)
  · exact (writesOnly_takeBreak s).trans (writesOnly_enterInterrupt _ k)

/-! ### Every instruction -/

/-- An instruction writes only the flags, registers and run state that the tables give it. -/
theorem exec_writesOnly (i : Instr) (s t : State) (h : exec i s = .next t) : WritesOnly (writesOf i s) s t := by
  cases i
  case mulZpX zz =>
    change (if s.cfg.hasMulDiv then Host.Outcome.next _ else _) = _ at h
    split at h <;> cases h
    exact writesOnly_push_setA s _ _
  case divZpX zz =>
    change (if s.cfg.hasMulDiv then Host.Outcome.next _ else _) = _ at h
    split at h <;> cases h
    obtain ⟨p, q, e⟩ := State.divideBy_eq s zz
    rw [e]
    exact writesOnly_push_setA s p q
  case jmpInd ll hh =>
    change (if ll = 0xFF then _ else Host.Outcome.next _) = _ at h
    split at h <;> cases h
    exact writesOnly_jump s _
  case stp =>
    change execStp s = _ at h
    unfold execStp at h
    split at h <;> cases h <;> exact ⟨fun _ _ => rfl, fun _ => rfl, fun _ => rfl, fun _ => rfl, fun _ => rfl, nofun⟩
  case wit =>
    obtain rfl := next_inj h
    exact ⟨fun _ _ => rfl, fun _ => rfl, fun _ => rfl, fun _ => rfl, fun _ => rfl, nofun⟩
  case brk =>
    change execBrk s = _ at h
    unfold execBrk at h
    split at h <;> cases h
    · exact writesOnly_takeBreakPending s _
    · exact writesOnly_takeBreak s
  case ldaImm | ldaZp | ldaZpX | ldaAbs | ldaAbsX | ldaAbsY | ldaIndX | ldaIndY =>
    obtain rfl := next_inj h
    exact writesOnly_load s _
  case adcImm | adcZp | adcZpX | adcAbs | adcAbsX | adcAbsY | adcIndX | adcIndY =>
    obtain rfl := next_inj h
    exact writesOnly_adc s _
  case sbcImm | sbcZp | sbcZpX | sbcAbs | sbcAbsX | sbcAbsY | sbcIndX | sbcIndY =>
    obtain rfl := next_inj h
    exact writesOnly_sbc s _
  case andImm | andZp | andZpX | andAbs | andAbsX | andAbsY | andIndX | andIndY | oraImm | oraZp | oraZpX | oraAbs |
      oraAbsX | oraAbsY | oraIndX | oraIndY | eorImm | eorZp | eorZpX | eorAbs | eorAbsX | eorAbsY | eorIndX |
      eorIndY =>
    obtain rfl := next_inj h
    exact writesOnly_logic s _ _
  case staZp | stxZp | styZp | staZpX | styZpX | stxZpY | staAbs | stxAbs | styAbs | staAbsX | staAbsY | staIndX |
      staIndY | ldmZp | rrfZp | clbZp | sebZp =>
    obtain rfl := next_inj h
    exact writesOnly_write s _ _ _
  case incZp | decZp | comZp | incZpX | decZpX | incAbs | decAbs | incAbsX | decAbsX =>
    obtain rfl := next_inj h
    exact writesOnly_modifyNZ s _ _
  case aslZp | lsrZp | rolZp | rorZp | aslZpX | lsrZpX | rolZpX | rorZpX | aslAbs | lsrAbs | rolAbs | rorAbs | aslAbsX |
      lsrAbsX | rolAbsX | rorAbsX =>
    obtain rfl := next_inj h
    exact writesOnly_shiftMem s _ _
  case aslAcc | lsrAcc | rolAcc | rorAcc =>
    obtain rfl := next_inj h
    exact writesOnly_shiftAcc s _
  case cmpImm | cmpZp | cmpZpX | cmpAbs | cmpAbsX | cmpAbsY | cmpIndX | cmpIndY | cpxImm | cpxZp | cpxAbs | cpyImm |
      cpyZp | cpyAbs =>
    obtain rfl := next_inj h
    exact writesOnly_compare s _ _
  case bitZp | bitAbs =>
    obtain rfl := next_inj h
    exact writesOnly_bitTest s _
  case clc | sec | cld | sed | cli | sei | clt | set | clv =>
    obtain rfl := next_inj h
    exact writesOnly_flagInstr s _ _
  case pha | php =>
    obtain rfl := next_inj h
    exact writesOnly_push s _
  case jsrAbs | jsrZpInd | jsrSpecial =>
    obtain rfl := next_inj h
    exact writesOnly_call_jump s _ _
  case jmpAbs | jmpZpInd | nop =>
    obtain rfl := next_inj h
    exact writesOnly_jump s _
  case bra | bcc | bcs | bne | beq | bpl | bmi | bvc | bvs | bbcAcc | bbcZp | bbsAcc | bbsZp =>
    obtain rfl := next_inj h
    exact writesOnly_branch s _ _ _
  case plp | rti =>
    obtain rfl := next_inj h
    exact ⟨sameFlagsBut_all _ _, fun _ => rfl, fun _ => rfl, fun _ => rfl, nofun, fun _ => rfl⟩
  case ldxImm | ldxZp | ldxZpY | ldxAbs | ldxAbsY | tax | tsx | inx | dex =>
    obtain rfl := next_inj h
    exact writesOnly_setX_setNZ s _ _
  case ldyImm | ldyZp | ldyZpX | ldyAbs | ldyAbsX | tay | iny | dey =>
    obtain rfl := next_inj h
    exact writesOnly_setY_setNZ s _ _
  case txa | tya | incAcc | decAcc =>
    obtain rfl := next_inj h
    exact writesOnly_setA_setNZ s _ _
  case pla =>
    obtain rfl := next_inj h
    exact writesOnly_pullA s _ _ _
  case tstZp =>
    obtain rfl := next_inj h
    exact writesOnly_test s _ _
  case clbAcc | sebAcc =>
    obtain rfl := next_inj h
    exact writesOnly_bitAcc s _ _
  case txs | rts =>
    obtain rfl := next_inj h
    exact writesOnly_setSp s _ _

/-! ### The run state -/

/-- BRK, whatever is pending, leaves a running CPU running (R319). -/
theorem takeBreakPending_run (s : State) (k : IntSource) (h : s.run = .running) :
    (s.takeBreakPending k).run = .running := by
  unfold State.takeBreakPending
  split
  · exact (State.takeException_run ..).trans h
  · rw [State.setBitAt_run, State.takeException_run, h]
  · rfl

theorem exec_brk_run (s t : State) (h : exec .brk s = .next t) (hs : s.run = .running) : t.run = .running := by
  change execBrk s = _ at h
  unfold execBrk at h
  split at h <;> cases h
  · exact takeBreakPending_run s _ hs
  · exact (State.takeException_run ..).trans hs

theorem writesRun_mnemonic (i : Instr) (hw : i ≠ .wit) (hs : i ≠ .stp) (hb : i ≠ .brk) :
    writesRun i.mnemonic = false := by
  cases i
  case wit => exact absurd rfl hw
  case stp => exact absurd rfl hs
  case brk => exact absurd rfl hb
  all_goals rfl

/-- Every instruction but WIT, STP and BRK keeps the run state (R45). -/
theorem exec_run (i : Instr) (s t : State) (h : exec i s = .next t) (hw : i ≠ .wit) (hs : i ≠ .stp) (hb : i ≠ .brk) :
    t.run = s.run := by
  obtain ⟨-, -, -, -, -, hrun⟩ := exec_writesOnly i s t h
  exact hrun (writesRun_mnemonic i hw hs hb)

/-- Only WIT and STP take a running CPU to a standby state (R45). -/
theorem wit_or_stp_of_run_ne (i : Instr) (s t : State) (h : exec i s = .next t) (hs : s.run = .running)
    (ht : t.run ≠ .running) : i = .wit ∨ i = .stp := by
  by_contra hn
  obtain ⟨hw, hp⟩ := not_or.1 hn
  by_cases hb : i = .brk
  · subst hb
    exact ht (exec_brk_run s t h hs)
  · exact ht ((exec_run i s t h hw hp hb).trans hs)

/-! ### The memory -/

/-- BRK stores its context at least, so a form with no address to store to is not BRK's (R281). -/
theorem ne_brk_of_storedAddrs_nil {i : Instr} {s : State} (h : storedAddrs i s = []) : i ≠ .brk := by
  rintro rfl
  nomatch h

/-- An instruction whose form stores to no address leaves the memory and the bus. -/
theorem exec_sameMemory (i : Instr) (s t : State) (h : exec i s = .next t) (hn : storedAddrs i s = []) :
    SameMemory s t := by
  obtain ⟨-, hm⟩ | ⟨a, v, ha, -⟩ | ⟨v, w, ha, -⟩ := exec_stores i s t (ne_brk_of_storedAddrs_nil hn) h
  · exact hm
  · nomatch hn.symm.trans ha
  · nomatch hn.symm.trans ha

/-- BRK with a source pending keeps the memory's canonical form, in each of the three behaviours of R319. -/
theorem wf_takeBreakPending (s : State) (k : IntSource) (h : s.mem.wf) : (s.takeBreakPending k).mem.wf := by
  unfold State.takeBreakPending
  split
  · exact State.wf_takeException s _ _ _ _ _ h
  · exact State.wf_setBitAt _ _ _ (State.wf_takeException s _ _ _ _ _ h)
  · exact State.wf_enterInterrupt _ k (State.wf_takeException s _ _ _ _ _ h)

/-- Every instruction keeps the memory's canonical form. -/
theorem exec_wf (i : Instr) (s t : State) (h : exec i s = .next t) (hs : s.mem.wf) : t.mem.wf := by
  by_cases hb : i = .brk
  · subst hb
    change execBrk s = _ at h
    unfold execBrk at h
    split at h <;> cases h
    · exact wf_takeBreakPending s _ hs
    · exact State.wf_takeException s _ _ _ _ _ hs
  · obtain ⟨-, hm, -⟩ | ⟨a, v, -, hm, -⟩ | ⟨v, w, -, hm, -⟩ := exec_stores i s t hb h
    · exact hm ▸ hs
    · exact hm ▸ State.wf_write s a v hs
    · exact hm ▸ State.wf_push _ w (State.wf_push s v hs)

/-! ### The history of WIT and STP -/

/-- An instruction that stops the CPU leaves no hazard history: it writes nothing, and is none of those the hazard rules
name (R45, R46). -/
theorem prevAfter_of_run_ne (i : Instr) (s t : State) (h : exec i s = .next t) (hs : s.run = .running)
    (ht : t.run ≠ .running) (hw : s.bus.writes = []) : prevAfter i s t = Prev.other := by
  have hi := wit_or_stp_of_run_ne i s t h hs ht
  have hn : storedAddrs i s = [] := by obtain rfl | rfl := hi <;> rfl
  obtain ⟨-, hbus⟩ := exec_sameMemory i s t h hn
  have hraced : racedSources s t.bus.writes = [] := by simp [racedSources, hbus, hw]
  have hbytes : writtenRequestBytes s.cfg t.bus.writes = [] := by simp [writtenRequestBytes, hbus, hw]
  unfold prevAfter
  rw [hraced, hbytes]
  obtain rfl | rfl := hi <;> rfl

/-! ### The invariant, for each thing that a step can be -/

theorem inv_resetWith (s : State) (d : ResetDraw) (h : s.mem.wf) : (s.resetWith d).Inv :=
  ⟨wf_resetMemory s.cfg s.mem d.ram h, fun _ => rfl, rfl⟩

theorem inv_accept (s : State) (k : IntSource) (h : s.mem.wf) : (s.accept k).Inv := by
  refine ⟨?_, fun _ => State.accept_prev s k, State.accept_bus s k⟩
  rw [State.accept_mem]
  exact State.wf_settle _ (State.wf_enterInterrupt s k h)

/-- No instruction runs in a standby state, which keeps its empty history. -/
theorem inv_standby (s t : State) (h : t.mem.wf) (hp : t.prev = Prev.other) : (s.standby t).Inv := ⟨h, fun _ => hp, rfl⟩

theorem inv_retire (i : Instr) (s t : State) (h : exec i s = .next t) (hm : s.mem.wf) (hr : s.run = .running)
    (hw : s.bus.writes = []) : (State.retire i s t).Inv := by
  refine ⟨State.wf_settle t (exec_wf i s t h hm), fun ht => ?_, State.retire_bus i s t⟩
  rw [State.retire_run] at ht
  exact prevAfter_of_run_ne i s t h hr ht hw

/-! ### The stack page -/

/-- The page byte that a bit selects: 0 for page `0x00`, 1 for page `0x01` (R41). -/
theorem toNat_pageByte (b : Bool) : (if b then 0x01 else 0x00 : Byte).toNat = b.toNat := by
  cases b <;> rfl

/-! ### The obligations -/

/-- Settles O8, over the four things a step can be: a reset and an acceptance clear the history, a standby state keeps its
empty one, and an instruction that stops the CPU is WIT or STP, which leave none. -/
theorem stepKeepsInvariant : Obligations.StepKeepsInvariant := by
  unfold Obligations.StepKeepsInvariant
  rintro s t ⟨hm, hprev, -⟩ h
  have hl := State.wf_landed s hm
  obtain ⟨d, -, rfl⟩ | ⟨k, -, -, rfl⟩ | ⟨-, -, hr, rfl⟩ | ⟨-, -, hr, i, u, -, -, hu, rfl⟩ := step_cases h
  · exact inv_resetWith s.popInput d hm
  · exact inv_accept s.landed k hl
  · exact inv_standby s s.landed hl ((State.landed_prev s).trans (hprev hr))
  · exact inv_retire i s.landed u hu hl ((State.landed_run s).trans hr) (by rw [State.landed_bus])

/-- Settles O11, by what each instruction may write (`exec_writesOnly`). -/
theorem flagFrame : Obligations.FlagFrame := by
  unfold Obligations.FlagFrame
  intro i s t h
  obtain ⟨hflags, -⟩ := exec_writesOnly i s t h
  exact hflags

/-- Settles O12, by what each instruction may write (`exec_writesOnly`). -/
theorem registerFrame : Obligations.RegisterFrame := by
  unfold Obligations.RegisterFrame
  intro i s t h
  obtain ⟨-, ha, hx, hy, hsp, -⟩ := exec_writesOnly i s t h
  exact ⟨ha, hx, hy, hsp⟩

/-- Settles O14: the hidden fields by `exec_sameHidden`, the memory by the addresses of the form, the run state by
`exec_run`. -/
theorem hiddenFrame : Obligations.HiddenFrame := by
  unfold Obligations.HiddenFrame
  intro i s t h
  obtain ⟨hprev, hcfg, hinputs, hdraws⟩ := exec_sameHidden i s t h
  refine ⟨hprev, hcfg, hinputs, hdraws, exec_sameMemory i s t h, exec_run i s t h, ?_⟩
  rintro rfl
  exact exec_brk_run s t h

/-- Settles O18, by the two kinds of stack page a product can have (R5, R41). -/
theorem stackAddresses : Obligations.StackAddresses := by
  unfold Obligations.StackAddresses
  refine fun s z => ⟨toNat_join _ _, fun one h => ?_, fun l h => ?_⟩
  · unfold State.stackPage
    rw [h]
    exact toNat_pageByte one
  · unfold State.stackPage
    rw [h]
    exact toNat_pageByte (s.bitAt l)

/-- Settles O60: nothing is listed in the memory after reset, and the other fields are as `State.reset` writes them. -/
theorem resetState : Obligations.ResetState :=
  ⟨⟨Memory.wf_nil, fun _ => rfl, rfl⟩, rfl, rfl, rfl⟩

end Sys2Proof.Machine

/-! What each shared operation keeps of one byte of memory, and from these that ROM is kept by every step, O9, and the
frame of the memory, O13. -/

namespace Sys2Proof.Machine

open Sys2Proof Sys2Proof.Config

/-! ### The addresses that no store reaches -/

/-- Stores to the listed addresses do not reach `a`: it is none of them, or nothing can be stored there (R73). -/
def Spared (p : Product) (as : List Addr) (a : Addr) : Prop := a ∈ as → writable p a = false

theorem spared_of_not_mem {as : List Addr} {a : Addr} (p : Product) (h : a ∉ as) : Spared p as a :=
  fun k => absurd k h

theorem spared_of_not_writable {p : Product} {a : Addr} (as : List Addr) (h : writable p a = false) : Spared p as a :=
  fun _ => h

theorem spared_cons {p : Product} {b : Addr} {as : List Addr} {a : Addr} :
    Spared p (b :: as) a ↔ (a = b → writable p a = false) ∧ Spared p as a := by
  simp [Spared, or_imp]

theorem spared_singleton {p : Product} {b a : Addr} : Spared p [b] a ↔ (a = b → writable p a = false) := by
  simp [Spared]

theorem spared_append {p : Product} {as bs : List Addr} {a : Addr} :
    Spared p (as ++ bs) a ↔ Spared p as a ∧ Spared p bs a := by
  simp [Spared, or_imp]

/-- Nothing can be stored in ROM (R73). -/
theorem not_writable_of_rom {p : Product} {a : Addr} (h : classOf p a = .rom) : writable p a = false := by
  simp [writable, h]

/-! ### What each shared operation keeps of a byte -/

/-- From `s` to `t` the byte stored at `a` is kept, and where no request was to arrive inside the instruction,
none is. -/
def KeepsAt (a : Addr) (s t : State) : Prop :=
  t.peek a = s.peek a ∧ (s.bus.arrivals = [] → t.bus.arrivals = [])

theorem KeepsAt.trans {a : Addr} {s t u : State} (h : KeepsAt a s t) (k : KeepsAt a t u) : KeepsAt a s u :=
  ⟨k.1.trans h.1, k.2 ∘ h.2⟩

theorem keepsAt_of_sameMemory (a : Addr) {s t : State} (h : SameMemory s t) : KeepsAt a s t := by
  obtain ⟨hm, hb⟩ := h
  exact ⟨by simp [State.peek, hm], fun hs => by rw [hb, hs]⟩

/-- A write can only take requests off the bus (R76). -/
theorem State.write_arrivals_nil (s : State) (b : Addr) (v : Byte) (h : s.bus.arrivals = []) :
    (s.write b v).bus.arrivals = [] := by
  rw [State.write_bus]
  split <;> simp [State.busAfter, h]

theorem keepsAt_write {s : State} {a b : Addr} (v : Byte) (h : a = b → writable s.cfg a = false) :
    KeepsAt a s (s.write b v) := by
  refine ⟨?_, State.write_arrivals_nil s b v⟩
  rw [State.peek_write, if_neg]
  rintro ⟨rfl, hw⟩
  exact absurd hw (by simp [h rfl])

theorem keepsAt_push {s : State} {a : Addr} (v : Byte) (h : a = s.stackAddr s.sp → writable s.cfg a = false) :
    KeepsAt a s (s.push v) := keepsAt_write v h

theorem keepsAt_setBitAt {s : State} {a : Addr} (l : BitLoc) (b : Bool) (h : a = l.addr → writable s.cfg a = false) :
    KeepsAt a s (s.setBitAt l b) :=
  ⟨(keepsAt_write (withBit (s.peek l.addr) l.bit b) h).1, fun hs => by rw [State.setBitAt_bus, hs]⟩

/-- Pushing a list of bytes stores to the addresses of its pushes. -/
theorem keepsAt_foldl_push (vs : List Byte) (s : State) (a : Addr) (h : Spared s.cfg (pushAddrs s vs) a) :
    KeepsAt a s (vs.foldl State.push s) := by
  induction vs generalizing s with
  | nil => exact keepsAt_of_sameMemory a ⟨rfl, rfl⟩
  | cons v vs ih =>
    obtain ⟨hfirst, hrest⟩ := spared_cons.1 h
    exact (keepsAt_push v hfirst).trans (ih (s.push v) (by rwa [State.push_cfg]))

/-- Saving the context is three pushes between two writes of `PS`. -/
theorem State.saveContext_eq_foldl (s : State) (brk : Bool) (ret : Addr) :
    s.saveContext brk ret =
      ([hiByte ret, loByte ret, (s.setFlag .b brk).ps].foldl State.push (s.setFlag .b brk)).setFlag .i true := by
  simp [State.saveContext, State.push16]

theorem keepsAt_takeException {s : State} {a : Addr} (brk : Bool) (ret v : Addr) (lo hi : Draw)
    (h : Spared s.cfg (contextAddrs s brk ret) a) : KeepsAt a s (s.takeException brk ret v lo hi) := by
  have hpushes := keepsAt_foldl_push [hiByte ret, loByte ret, (s.setFlag .b brk).ps] (s.setFlag .b brk) a h
  rw [State.takeException_eq, State.saveContext_eq_foldl]
  exact hpushes

theorem keepsAt_enterInterrupt {s : State} {a : Addr} (k : IntSource) (h : Spared s.cfg (entryAddrs s k) a) :
    KeepsAt a s (s.enterInterrupt k) := by
  obtain ⟨hrequest, hcontext⟩ := spared_cons.1 h
  exact (keepsAt_setBitAt k.request false hrequest).trans
    (keepsAt_takeException (s := s.setBitAt k.request false) false s.pc k.vector .irqVectorLo .irqVectorHi
      (by rwa [State.setBitAt_cfg]))

/-! ### Every instruction -/

/-- BRK stores to its context's addresses, and with a source pending to those of the product's choice of R319. -/
theorem keepsAt_execBrk {s t : State} {a : Addr} (h : execBrk s = .next t) (ha : Spared s.cfg (breakAddrs s) a) :
    KeepsAt a s t := by
  obtain ⟨hcontext, hpending⟩ := spared_append.1 ha
  have htake : KeepsAt a s s.takeBreak := keepsAt_takeException true (s.pc + 2) _ _ _ hcontext
  unfold execBrk at h
  split at h <;> obtain rfl := next_inj h
  · next k hk =>
    unfold State.takeBreakPending
    split
    · exact htake
    · next hc =>
      simp only [hk, hc, spared_singleton] at hpending
      have hvector := keepsAt_takeException true (s.pc + 2) k.vector .irqVectorLo .irqVectorHi hcontext
      exact hvector.trans (keepsAt_setBitAt k.request false (by rwa [State.takeException_cfg]))
    · next hc =>
      simp only [hk, hc] at hpending
      obtain ⟨-, hcfg, -⟩ := sameHidden_takeBreak s
      exact htake.trans (keepsAt_enterInterrupt k (hcfg ▸ hpending))
  · exact htake

/-- An instruction keeps every byte that the stores of its form do not reach. -/
theorem exec_keepsAt {i : Instr} {s t : State} {a : Addr} (h : exec i s = .next t)
    (ha : Spared s.cfg (storedAddrs i s) a) : KeepsAt a s t := by
  by_cases hi : i = .brk
  · subst hi
    exact keepsAt_execBrk h ha
  · obtain ⟨-, hm⟩ | ⟨b, v, hb, hm⟩ | ⟨v, w, hvw, hm⟩ := exec_stores i s t hi h
    · exact keepsAt_of_sameMemory a hm
    · rw [hb] at ha
      exact (keepsAt_write v (spared_singleton.1 ha)).trans (keepsAt_of_sameMemory a hm)
    · rw [hvw] at ha
      exact (keepsAt_foldl_push [v, w] s a ha).trans (keepsAt_of_sameMemory a hm)

/-! ### The requests of a boundary, and the reset -/

/-- A request sets no bit where nothing can be stored. -/
theorem raisesBit_of_not_writable {p : Product} {a : Addr} (h : writable p a = false) (j n : Nat) :
    raisesBit p a j n = false := by
  unfold raisesBit
  split <;> simp [h]

/-- The requests of a boundary keep a byte where nothing can be stored. -/
theorem peek_landed_of_not_writable (s : State) {a : Addr} (h : writable s.cfg a = false) :
    s.landed.peek a = s.peek a := by
  apply BitVec.eq_of_getLsbD_eq
  intro j hj
  simp [State.getLsbD_peek_landed s a j hj, raisesBit_of_not_writable h]

/-- A reset keeps a byte of ROM (R346). -/
theorem peek_resetWith_of_rom (s : State) (d : ResetDraw) {a : Addr} (h : classOf s.cfg a = .rom) :
    (s.resetWith d).peek a = s.peek a :=
  get_resetMemory_rom s.cfg s.mem d.ram a h

/-- A read depends on the byte stored at its address and, where the byte holds a request bit, on what is to arrive. -/
theorem read_eq_of_keepsAt {s t : State} {a : Addr} (hk : KeepsAt a s t) (hc : t.cfg = s.cfg) (hd : t.draws = s.draws)
    (h : s.bus.arrivals = [] ∨ ∀ k ∈ s.cfg.sources, k.request.addr ≠ a) (d : Draw) : t.read d a = s.read d a := by
  obtain ⟨hpeek, harrivals⟩ := hk
  have hseen : t.seen d a = s.seen d a := by
    rcases h with h | h
    · rw [State.seen_of_no_arrival t d a (harrivals h), State.seen_of_no_arrival s d a h, hpeek]
    · rw [State.seen_of_no_request t d a (hc ▸ h), State.seen_of_no_request s d a h, hpeek]
  simp only [State.read, hseen, hpeek, hc, hd]

/-! ### The obligations -/

/-- Settles O9, over the four things a step can be: the boundary's requests, the stores of an entry or an instruction,
and the requests that land at the end all need a byte that can be written, and a reset keeps ROM by its own rule. -/
theorem stepKeepsRom : Obligations.StepKeepsRom := by
  unfold Obligations.StepKeepsRom
  intro s t a h hrom
  have hw : writable s.landed.cfg a = false := by
    rw [State.landed_cfg]
    exact not_writable_of_rom hrom
  have hlanded : s.landed.peek a = s.peek a := peek_landed_of_not_writable s (not_writable_of_rom hrom)
  obtain ⟨d, -, rfl⟩ | ⟨k, -, -, rfl⟩ | ⟨-, -, -, rfl⟩ | ⟨-, -, -, i, u, -, -, hu, rfl⟩ := step_cases h
  · exact peek_resetWith_of_rom s.popInput d hrom
  · obtain ⟨-, hcfg, -⟩ := sameHidden_enterInterrupt s.landed k
    obtain ⟨hentry, -⟩ := keepsAt_enterInterrupt k (spared_of_not_writable _ hw)
    rw [State.accept_peek, State.peek_settle_of _ a (.inl (hcfg ▸ hw)), hentry, hlanded]
  · exact hlanded
  · obtain ⟨-, hcfg, -⟩ := exec_sameHidden i s.landed u hu
    obtain ⟨hexec, -⟩ := exec_keepsAt hu (spared_of_not_writable _ hw)
    rw [State.retire_peek, State.peek_settle_of _ a (.inl (hcfg ▸ hw)), hexec, hlanded]

/-- Settles O13: the byte and the bus by `exec_keepsAt`, and the reads from these. -/
theorem memoryFrame : Obligations.MemoryFrame := by
  unfold Obligations.MemoryFrame
  intro i s t a h ha
  obtain ⟨-, hcfg, -, hdraws⟩ := exec_sameHidden i s t h
  have hk : KeepsAt a s t := exec_keepsAt h (spared_of_not_mem s.cfg ha)
  exact ⟨hk.1, read_eq_of_keepsAt hk hcfg hdraws⟩

end Sys2Proof.Machine

/-! What happens on the bus inside an instruction, bit by bit, and from this O53; the fetch of an instruction that has a
byte where there is no memory, and from this O6. -/

namespace Sys2Proof.Machine

open Sys2Proof Sys2Proof.Config

/-! ### Requests inside an instruction -/

/-- A request has arrived by a read after `n` writes: its moment is before the last of them, or after it and no later
than the read's turn (R76). -/
theorem arrivedBy_iff (n : Nat) (d : Draw) (r : Arrival) :
    arrivedBy n d r = true ↔ r.writes < n ∨ r.writes = n ∧ r.turn ≤ drawTurn d := by
  simp [arrivedBy]

theorem arrivesAt_eq_false_iff (p : Product) (a : Addr) (r : Arrival) :
    arrivesAt p a r = false ↔ ∀ k, p.sources[r.source]? = some k → k.request.addr ≠ a := by
  unfold arrivesAt
  cases p.sources[r.source]? <;> simp

theorem raisesBit_iff (p : Product) (a : Addr) (j n : Nat) :
    raisesBit p a j n = true ↔
      ∃ k, p.sources[n]? = some k ∧ k.request.addr = a ∧ (k.request.bit : Nat) = j ∧ writable p a = true := by
  unfold raisesBit
  cases p.sources[n]? with
  | none => simp
  | some k =>
    simp only [Bool.and_eq_true, decide_eq_true_eq, Option.some.injEq, exists_eq_left']
    constructor
    · rintro ⟨⟨ha, hw⟩, hj⟩
      exact ⟨ha.symm, hj.symm, hw⟩
    · rintro ⟨ha, hj, hw⟩
      exact ⟨⟨ha.symm, hw⟩, hj.symm⟩

/-- A bit as a read finds it: stored, or a request that has arrived (R76). -/
theorem State.getLsbD_seen (s : State) (d : Draw) (a : Addr) (j : Nat) (hj : j < 8) :
    (s.seen d a).getLsbD j = true ↔
      (s.peek a).getLsbD j = true ∨
      ∃ r ∈ s.bus.arrivals, ∃ k, s.cfg.sources[r.source]? = some k ∧ k.request.addr = a ∧ (k.request.bit : Nat) = j ∧
        (r.writes < s.bus.writes.length ∨ r.writes = s.bus.writes.length ∧ r.turn ≤ drawTurn d) := by
  unfold State.seen
  rw [BitVec.getLsbD_or, Bool.or_eq_true, getLsbD_arrivalMask _ _ _ _ hj]
  simp only [List.mem_filter, arrivedBy_iff]
  refine or_congr_right ⟨?_, ?_⟩
  · rintro ⟨r, ⟨hr, harrived⟩, k, hk, ha, hb⟩
    exact ⟨r, hr, k, hk, ha, hb, harrived⟩
  · rintro ⟨r, hr, k, hk, ha, hb, harrived⟩
    exact ⟨r, ⟨hr, harrived⟩, k, hk, ha, hb⟩

/-- RAM reads as it is seen (R66, R76). -/
theorem State.read_of_ram (s : State) (d : Draw) (a : Addr) (h : classOf s.cfg a = .ram) : s.read d a = s.seen d a := by
  simp [State.read, h]

/-- A control bit of a device register reads as it is seen (R44, R76). -/
theorem State.getLsbD_read_of_control (s : State) (d : Draw) (a : Addr) (j : Nat) (hj : j < 8)
    (h : classOf s.cfg a = .sfr) (hl : ∃ l ∈ controlBits s.cfg, l.addr = a ∧ (l.bit : Nat) = j) :
    (s.read d a).getLsbD j = (s.seen d a).getLsbD j := by
  have hmask : (controlMask s.cfg a).getLsbD j = true := (getLsbD_controlMask s.cfg a j hj).2 hl
  simp [State.read, h, hmask]

/-- A write that is stored is noted on the bus (R75). -/
theorem State.length_writes_write (s : State) (a : Addr) (v : Byte) (h : writable s.cfg a = true) :
    (s.write a v).bus.writes.length = s.bus.writes.length + 1 := by
  simp [State.write_bus, h, State.busAfter]

/-- The requests that a write leaves to come: those after it, and those of other bytes (R76). -/
theorem State.mem_arrivals_write (s : State) (a : Addr) (v : Byte) (r : Arrival) (h : writable s.cfg a = true) :
    r ∈ (s.write a v).bus.arrivals ↔
      r ∈ s.bus.arrivals ∧
        (s.bus.writes.length < r.writes ∨ ∀ k, s.cfg.sources[r.source]? = some k → k.request.addr ≠ a) := by
  rw [State.write_bus, if_pos h, ← arrivesAt_eq_false_iff]
  simp [State.busAfter]

/-- Settles O53: a read by what it sees of the byte, a write by the requests it leaves, the end by the bits that the
requests that are left raise. -/
theorem requestsInsideInstruction : Obligations.RequestsInsideInstruction := by
  unfold Obligations.RequestsInsideInstruction
  refine fun s a => ⟨fun d j hj hc => ?_, fun v r hw => ⟨?_, ?_, ?_⟩, fun j hj => ?_⟩
  · rw [← State.getLsbD_seen s d a j hj]
    rcases hc with hram | ⟨hsfr, hcontrol⟩
    · rw [State.read_of_ram s d a hram]
    · rw [State.getLsbD_read_of_control s d a j hj hsfr hcontrol]
  · rw [State.peek_write, if_pos ⟨rfl, hw⟩]
  · exact State.length_writes_write s a v hw
  · exact State.mem_arrivals_write s a v r hw
  · rw [State.getLsbD_peek_settle s a j hj, Bool.or_eq_true, List.any_eq_true]
    simp only [raisesBit_iff]

/-! ### The step of a quiet boundary -/

/-- A quiet boundary of a running CPU runs the next instruction (R321). -/
theorem step_of_quiet {s : State} (hq : s.Quiet) (hr : s.run = .running) : step s = s.popInput.runInstr := by
  obtain ⟨hinput, haccepted⟩ := hq
  have hlanded : s.landed = s.popInput := State.landed_of_no_request s (by rw [hinput])
  have hnone : s.popInput.accepted {} = none := haccepted
  simp [step, State.live, hinput, hlanded, hnone, hr]

/-- A fetch that is refused leaves the step of a quiet boundary without a successor. -/
theorem step_of_fetch_error {s : State} {r : Refusal} (hq : s.Quiet) (hr : s.run = .running) (h : s.fetch = .error r) :
    step s = .refused r := by
  have hf : s.popInput.fetch = .error r := h
  rw [step_of_quiet hq hr, State.runInstr, hf]

/-! ### The formats of the op-codes -/

/-- How many bytes an instruction of a format takes (R91). -/
def shapeLength : Shape → Nat
  | .f1 _ => 1
  | .f2 _ => 2
  | .f3 _ => 3

/-- The instruction that a format gives with operand bytes, of which it takes as many as it asks for. -/
def shapeInstr (sh : Shape) (o1 o2 : Byte) : Instr :=
  match sh with
  | .f1 i => i
  | .f2 f => f o1
  | .f3 f => f o1 o2

theorem length_of_fixedShape {op : Nat} {sh : Shape} (hop : op < 256) (h : fixedShape op = some sh)
    (o1 o2 : Byte) : (shapeInstr sh o1 o2).length = shapeLength sh := by
  interval_cases op <;> cases h <;> rfl

/-- The instructions of an op-code are as long as its format says (R91, R92). -/
theorem length_of_opShape {op : Byte} {sh : Shape} (h : opShape op = some sh) (o1 o2 : Byte) :
    (shapeInstr sh o1 o2).length = shapeLength sh := by
  unfold opShape at h
  split at h
  case h_9 => exact length_of_fixedShape op.isLt h o1 o2
  all_goals
    cases h
    rfl

/-- What decodes is the instruction of its op-code's format (R94). -/
theorem decodeBytes_shape {op o1 o2 : Byte} {i : Instr} {rest : List Byte}
    (h : decodeBytes [op, o1, o2] = .ok (i, rest)) : ∃ sh, opShape op = some sh ∧ i = shapeInstr sh o1 o2 := by
  unfold decodeBytes at h
  cases hs : opShape op with
  | none => simp [hs] at h
  | some sh =>
    refine ⟨sh, rfl, ?_⟩
    cases sh
    all_goals
      simp only [hs, Except.ok.injEq, Prod.mk.injEq] at h
      obtain ⟨rfl, -⟩ := h
      rfl

/-! ### A fetch where there is no memory -/

theorem State.fetchByte_of_fetchable {s : State} {a : Addr} (h : s.fetchable a = true) :
    s.fetchByte a = .ok (s.peek a) := by
  simp [State.fetchByte, h]

theorem State.fetchByte_of_not_fetchable {s : State} {a : Addr} (h : s.fetchable a = false) :
    s.fetchByte a = .error (.fetchFromNonMemory a) := by
  simp [State.fetchByte, h]

/-- No op-code can be fetched from a device register or from no memory (R73). -/
theorem fetch_of_opcode_not_fetchable {s : State} (h : s.fetchable s.pc = false) :
    s.fetch = .error (.fetchFromNonMemory s.pc) := by
  rw [State.fetch, State.fetchByte_of_not_fetchable h]

/-- Of the operand bytes that the op-code's format asks for, the first that is in no memory is refused (R73, R116). -/
theorem fetch_of_operand_not_fetchable {s : State} {sh : Shape} {k : Nat} (hs : opShape (s.peek s.pc) = some sh)
    (hl : lacks s.cfg (s.peek s.pc) = false) (hpos : 0 < k) (hk : k < shapeLength sh)
    (hbefore : ∀ j < k, s.fetchable (s.pc + BitVec.ofNat 16 j) = true)
    (hat : s.fetchable (s.pc + BitVec.ofNat 16 k) = false) :
    s.fetch = .error (.fetchFromNonMemory (s.pc + BitVec.ofNat 16 k)) := by
  have hop : s.fetchByte s.pc = .ok (s.peek s.pc) := by
    simpa using State.fetchByte_of_fetchable (hbefore 0 hpos)
  have herror := State.fetchByte_of_not_fetchable hat
  unfold State.fetch
  simp only [hop, hl, hs, Bool.false_eq_true, if_false]
  cases sh with
  | f1 i =>
    simp only [shapeLength] at hk
    omega
  | f2 f =>
    simp only [shapeLength] at hk
    obtain rfl : k = 1 := by omega
    have h1 : s.fetchByte (s.pc + 1) = _ := herror
    simp only [h1]
  | f3 f =>
    simp only [shapeLength] at hk
    obtain rfl | rfl : k = 1 ∨ k = 2 := by omega
    · have h1 : s.fetchByte (s.pc + 1) = _ := herror
      simp only [h1]
    · have h1 : s.fetchByte (s.pc + 1) = _ := State.fetchByte_of_fetchable (hbefore 1 (by omega))
      have h2 : s.fetchByte (s.pc + 2) = _ := herror
      simp only [h1, h2]

/-- Settles O6: the op-code's byte is the first that is fetched, and the operand bytes follow as its format asks. -/
theorem fetchNeedsMemory : Obligations.FetchNeedsMemory := by
  unfold Obligations.FetchNeedsMemory
  intro s hq hr
  have hopcode (h : s.fetchable s.pc = false) : step s = .refused (.fetchFromNonMemory s.pc) :=
    step_of_fetch_error hq hr (fetch_of_opcode_not_fetchable h)
  refine ⟨hopcode, fun i rest k hd hk hl hbefore hat => ?_⟩
  obtain ⟨sh, hs, rfl⟩ := decodeBytes_shape hd
  rw [length_of_opShape hs] at hk
  obtain rfl | hpos := Nat.eq_zero_or_pos k
  · simpa using hopcode (by simpa using hat)
  · exact step_of_fetch_error hq hr (fetch_of_operand_not_fetchable hs hl hpos hk hbefore hat)

end Sys2Proof.Machine

/-! The decoder read through the formats of the op-codes: which bytes decode and to what, that the encoder gives those
bytes, how long they are, and which op-codes have no format; from these O1, O2, O3, O4 and O5. The fetch of a whole
instruction and of an op-code that stands for none, and from these O7 and O49. -/

namespace Sys2Proof.Machine

open Sys2Proof Sys2Proof.Config

/-! ### The op-codes of the bit instructions -/

theorem toNat_bitOpcode {k low : Nat} (hk : k < 8) (hlow : low < 32) : (bitOpcode k low).toNat = 32 * k + low := by
  rw [bitOpcode, BitVec.toNat_ofNat]
  omega

/-- The field `op[7:5]` of a bit instruction's op-code is its bit number (R97). -/
theorem toNat_bitOpcode_div {k low : Nat} (hk : k < 8) (hlow : low < 32) : (bitOpcode k low).toNat / 32 = k := by
  rw [toNat_bitOpcode hk hlow]
  omega

/-- The field `op[4:0]` of a bit instruction's op-code tells which instruction it is (R97). -/
theorem toNat_bitOpcode_mod {k low : Nat} (hk : k < 8) (hlow : low < 32) : (bitOpcode k low).toNat % 32 = low := by
  rw [toNat_bitOpcode hk hlow]
  omega

/-- An op-code is put together from its two fields (R97). -/
theorem bitOpcode_of_mod {op : Byte} {low : Nat} (h : op.toNat % 32 = low) : bitOpcode (op.toNat / 32) low = op := by
  apply BitVec.eq_of_toNat_eq
  have hop := op.isLt
  rw [toNat_bitOpcode (by omega) (by omega)]
  omega

/-! ### Which bytes decode -/

/-- The operand bytes of a format, of the two that are given (R91). -/
def shapeOperands (sh : Shape) (o1 o2 : Byte) : List Byte :=
  match sh with
  | .f1 _ => []
  | .f2 _ => [o1]
  | .f3 _ => [o1, o2]

/-- Bytes decode when they begin with an op-code that has a format, and with the operand bytes it asks for (R94). -/
theorem decodeBytes_eq_ok_iff (bs rest : List Byte) (i : Instr) :
    decodeBytes bs = .ok (i, rest) ↔
      ∃ op sh o1 o2, opShape op = some sh ∧ i = shapeInstr sh o1 o2 ∧ bs = op :: shapeOperands sh o1 o2 ++ rest := by
  constructor
  · intro h
    unfold decodeBytes at h
    split at h
    case h_1 => cases h
    case h_2 op tail =>
      split at h
      case h_1 => cases h
      case h_2 sh hs =>
        cases h
        exact ⟨op, _, 0, 0, hs, rfl, rfl⟩
      case h_3 f o1 _ hs =>
        cases h
        exact ⟨op, _, o1, 0, hs, rfl, rfl⟩
      case h_4 f o1 o2 _ hs =>
        cases h
        exact ⟨op, _, o1, o2, hs, rfl, rfl⟩
      case h_5 => cases h
  · rintro ⟨op, sh, o1, o2, hs, rfl, rfl⟩
    cases sh <;> simp [decodeBytes, hs, shapeOperands, shapeInstr]

/-- An op-code without a format is rejected by name, whatever follows it (R110). -/
theorem decodeBytes_of_no_shape {op : Byte} (h : opShape op = none) (rest : List Byte) :
    decodeBytes (op :: rest) = .error (.undefinedOpcode op) := by
  simp [decodeBytes, h]

/-! ### The encoder against the formats -/

theorem encode_of_fixedShape {op : Nat} {sh : Shape} (hop : op < 256) (h : fixedShape op = some sh) (o1 o2 : Byte) :
    (shapeInstr sh o1 o2).wellFormed = true ∧
      encode (shapeInstr sh o1 o2) = BitVec.ofNat 8 op :: shapeOperands sh o1 o2 := by
  interval_cases op <;> cases h <;> exact ⟨rfl, rfl⟩

/-- The instruction of an op-code's format is well formed, and its encoding is the op-code and the operand bytes. -/
theorem encode_of_opShape {op : Byte} {sh : Shape} (h : opShape op = some sh) (o1 o2 : Byte) :
    (shapeInstr sh o1 o2).wellFormed = true ∧ encode (shapeInstr sh o1 o2) = op :: shapeOperands sh o1 o2 := by
  have hbit : op.toNat / 32 < 8 := by have := op.isLt; omega
  unfold opShape at h
  split at h
  case h_9 => simpa using encode_of_fixedShape op.isLt h o1 o2
  all_goals
    next hlow =>
      cases h
      exact ⟨decide_eq_true hbit, congrArg (· :: _) (bitOpcode_of_mod hlow)⟩

/-- The bytes of a well-formed instruction decode to it: a bit instruction by the two fields of its op-code, every other
one by the map of R95. -/
theorem decodeBytes_encode (i : Instr) (rest : List Byte) (h : i.wellFormed = true) :
    decodeBytes (encode i ++ rest) = .ok (i, rest) := by
  have hfields (k low : Nat) (hk : k < 8) (hlow : low < 32) :=
    And.intro (toNat_bitOpcode_div hk hlow) (toNat_bitOpcode_mod hk hlow)
  cases i
  case clbZp k _ | clbAcc k | sebZp k _ | sebAcc k | bbcAcc k _ | bbcZp k _ _ | bbsAcc k _ | bbsZp k _ _ =>
    simp [encode, decodeBytes, opShape, hfields k _ (of_decide_eq_true h)]
  all_goals rfl

/-- A well-formed instruction is that of its op-code's format. -/
theorem exists_opShape (i : Instr) (h : i.wellFormed = true) :
    ∃ op sh o1 o2, opShape op = some sh ∧ i = shapeInstr sh o1 o2 := by
  obtain ⟨op, sh, o1, o2, hs, hi, -⟩ := (decodeBytes_eq_ok_iff _ [] i).1 (decodeBytes_encode i [] h)
  exact ⟨op, sh, o1, o2, hs, hi⟩

/-! ### The map of the op-codes -/

/-- The number of bytes that the table of R96 gives an op-code, by its column and the exceptions in it. -/
def columnLength (op : Byte) : Nat :=
  match op.toNat % 16 with
  | 0 => if op = 0x00 ∨ op = 0x40 ∨ op = 0x60 then 1 else if op = 0x20 then 3 else 2
  | 2 => if op = 0x12 ∨ op = 0x32 ∨ op = 0x42 ∨ op = 0xC2 then 1 else 2
  | 7 | 12 | 13 | 14 => 3
  | 8 | 10 | 11 => 1
  | 9 => if op.toNat / 16 % 2 = 0 then 2 else 3
  | _ => 2

/-- The format of each of the 256 op-codes is as long as the table of R96 says. -/
theorem shapeLength_of_opShape : ∀ op : Byte, ∀ sh ∈ opShape op, shapeLength sh = columnLength op := by
  decide

/-- Of the 256 op-codes, those without a format are the 25 of R110. -/
theorem isNone_opShape : ∀ op : Byte, (opShape op).isNone = decide (op ∈ Rows.undefinedOps) := by
  decide

/-! ### The fetch of an instruction -/

/-- The three op-codes that a product can be without (R111). -/
theorem lacks_iff (p : Product) (op : Byte) :
    lacks p op = true ↔ (op = 0x62 ∨ op = 0xE2) ∧ p.hasMulDiv = false ∨ op = 0x42 ∧ p.stpMode = .absent := by
  simp [lacks]

/-- An op-code that stands for no instruction, or for one the product lacks, is refused by name (R110, R111). -/
theorem fetch_of_no_instruction {s : State} (hf : s.fetchable s.pc = true)
    (h : lacks s.cfg (s.peek s.pc) = true ∨ opShape (s.peek s.pc) = none) :
    s.fetch = .error (.undefinedOpcode (s.peek s.pc)) := by
  have hnone : (if lacks s.cfg (s.peek s.pc) then none else opShape (s.peek s.pc)) = none := by
    obtain hl | hs := h
    · rw [hl, if_pos rfl]
    · rw [hs, ite_self]
  unfold State.fetch
  simp only [State.fetchByte_of_fetchable hf, hnone]

theorem shapeLength_pos (sh : Shape) : 0 < shapeLength sh := by
  cases sh <;> simp [shapeLength]

/-- What the bytes at PC decode to is fetched, when each of its bytes can be (R94, R116). -/
theorem fetch_of_decodeBytes {s : State} {i : Instr} {rest : List Byte}
    (hd : decodeBytes [s.peek s.pc, s.peek (s.pc + 1), s.peek (s.pc + 2)] = .ok (i, rest))
    (hl : lacks s.cfg (s.peek s.pc) = false)
    (hf : ∀ k < i.length, s.fetchable (s.pc + BitVec.ofNat 16 k) = true) : s.fetch = .ok i := by
  obtain ⟨sh, hs, rfl⟩ := decodeBytes_shape hd
  rw [length_of_opShape hs] at hf
  have hbyte (k : Nat) (hk : k < shapeLength sh) : s.fetchByte (s.pc + BitVec.ofNat 16 k) = .ok _ :=
    State.fetchByte_of_fetchable (hf k hk)
  have h0 : s.fetchByte s.pc = .ok (s.peek s.pc) := by
    simpa using hbyte 0 (shapeLength_pos sh)
  unfold State.fetch
  simp only [h0, hl, hs, Bool.false_eq_true, if_false]
  cases sh with
  | f1 i => rfl
  | f2 f =>
    have h1 : s.fetchByte (s.pc + 1) = .ok (s.peek (s.pc + 1)) := hbyte 1 (by simp [shapeLength])
    simp only [h1, shapeInstr]
  | f3 f =>
    have h1 : s.fetchByte (s.pc + 1) = .ok (s.peek (s.pc + 1)) := hbyte 1 (by simp [shapeLength])
    have h2 : s.fetchByte (s.pc + 2) = .ok (s.peek (s.pc + 2)) := hbyte 2 (by simp [shapeLength])
    simp only [h1, h2, shapeInstr]

/-- The meaning of an instruction on a product that lacks it is the refusal of its op-code (R111). -/
theorem exec_of_lacks {s : State} {op : Byte} {sh : Shape} (hs : opShape op = some sh) (hl : lacks s.cfg op = true)
    (o1 o2 : Byte) : exec (shapeInstr sh o1 o2) s = .refused (.undefinedOpcode op) := by
  obtain ⟨rfl | rfl, hp⟩ | ⟨rfl, hp⟩ := (lacks_iff _ _).1 hl
  · obtain rfl : Shape.f2 .mulZpX = sh := Option.some.inj hs
    simp [shapeInstr, exec, execMulZpX, hp]
  · obtain rfl : Shape.f2 .divZpX = sh := Option.some.inj hs
    simp [shapeInstr, exec, execDivZpX, hp]
  · obtain rfl : Shape.f1 .stp = sh := Option.some.inj hs
    simp [shapeInstr, exec, execStp, hp]

/-- The step that reaches the instruction at PC: no reset comes, no source is accepted, and the CPU runs (R321). -/
theorem step_of_running {s : State} (hreset : s.input.reset = none) (haccepted : s.landed.accepted s.input = none)
    (hr : s.run = .running) : step s = s.landed.runInstr := by
  simp [step, State.live, hreset, haccepted, hr]

/-- What a step makes of an instruction's meaning: a next state is retired, a stop stays (R46, R76). -/
def retireResult (i : Instr) (s : State) : Result → Result
  | .next t => .next (s.retire i t)
  | .fault f => .fault f
  | .refused r => .refused r

/-- An instruction that is fetched and that no hazard rule forbids is run as its meaning says. -/
theorem runInstr_of_fetch {s : State} {i : Instr} (hfetch : s.fetch = .ok i) (hz : hazard i s = none) :
    s.runInstr = retireResult i s (exec i s) := by
  simp only [State.runInstr, hfetch, hz]
  cases exec i s <;> rfl

/-- The instruction at PC is run as its meaning says, one that the product lacks included. -/
theorem runInstr_of_decodeBytes {s : State} {i : Instr} {rest : List Byte}
    (hd : decodeBytes [s.peek s.pc, s.peek (s.pc + 1), s.peek (s.pc + 2)] = .ok (i, rest))
    (hf : ∀ k < i.length, s.fetchable (s.pc + BitVec.ofNat 16 k) = true) (hz : hazard i s = none) :
    s.runInstr = retireResult i s (exec i s) := by
  cases hl : lacks s.cfg (s.peek s.pc) with
  | false => exact runInstr_of_fetch (fetch_of_decodeBytes hd hl hf) hz
  | true =>
    obtain ⟨sh, hs, rfl⟩ := decodeBytes_shape hd
    have hpos : 0 < (shapeInstr sh (s.peek (s.pc + 1)) (s.peek (s.pc + 2))).length :=
      length_of_opShape hs _ _ ▸ shapeLength_pos sh
    have hfetch := fetch_of_no_instruction (by simpa using hf 0 hpos) (.inl hl)
    simp only [State.runInstr, hfetch, exec_of_lacks hs hl, retireResult]

/-! ### The obligations -/

/-- Settles O1: the round trip of every constructor. -/
theorem decodeEncodeAgree : Obligations.DecodeEncodeAgree := decodeBytes_encode

/-- Settles O2: what decodes is read through its op-code's format, and the encoder gives the bytes of the format. -/
theorem encodeDecodeAgree : Obligations.EncodeDecodeAgree := by
  unfold Obligations.EncodeDecodeAgree
  intro i bs rest h
  obtain ⟨op, sh, o1, o2, hs, rfl, rfl⟩ := (decodeBytes_eq_ok_iff bs rest i).1 h
  obtain ⟨hwf, hencode⟩ := encode_of_opShape hs o1 o2
  exact ⟨hwf, by rw [hencode]⟩

/-- Settles O3: the length is that of the op-code's format, and the table gives each of the 256 op-codes that length. -/
theorem lengthByColumn : Obligations.LengthByColumn := by
  unfold Obligations.LengthByColumn
  intro i h
  obtain ⟨op, sh, o1, o2, hs, rfl⟩ := exists_opShape i h
  obtain ⟨-, hencode⟩ := encode_of_opShape hs o1 o2
  have hlength : (shapeInstr sh o1 o2).length = columnLength op := by
    rw [length_of_opShape hs, shapeLength_of_opShape op sh hs]
  exact ⟨op, by rw [hencode, List.head?_cons], hlength⟩

/-- Settles O5: an undefined op-code has no format, which the decoder and the fetch refuse alike; every other one has a
format, and two bytes are operands enough for it. -/
theorem undefinedOpcodesRefused : Obligations.UndefinedOpcodesRefused := by
  unfold Obligations.UndefinedOpcodesRefused
  intro op
  have hmap := isNone_opShape op
  constructor
  · intro hop
    have hnone : opShape op = none := by simpa [hop] using hmap
    refine ⟨decodeBytes_of_no_shape hnone, fun s hq hr hf hpeek => ?_⟩
    subst hpeek
    exact step_of_fetch_error hq hr (fetch_of_no_instruction hf (.inr hnone))
  · intro hop o1 o2
    obtain ⟨sh, hs⟩ : ∃ sh, opShape op = some sh := by
      simpa [hop, Option.isSome_iff_exists, Option.isNone_eq_false_iff] using hmap
    refine ⟨shapeInstr sh o1 o2, [o1, o2].drop (shapeLength sh - 1), (decodeBytes_eq_ok_iff _ _ _).2 ?_⟩
    exact ⟨op, sh, o1, o2, hs, rfl, by cases sh <;> rfl⟩

/-- Settles O49: the op-code is one that the product lacks, which the fetch refuses before it reads an operand. -/
theorem absentInstructionsRefused : Obligations.AbsentInstructionsRefused := by
  unfold Obligations.AbsentInstructionsRefused
  rintro s op hq hr hf rfl
  have hrefused (hl : lacks s.cfg (s.peek s.pc) = true) : step s = .refused (.undefinedOpcode (s.peek s.pc)) :=
    step_of_fetch_error hq hr (fetch_of_no_instruction hf (.inl hl))
  exact ⟨fun hop hp => hrefused ((lacks_iff _ _).2 (.inl ⟨hop, hp⟩)),
    fun hop hp => hrefused ((lacks_iff _ _).2 (.inr ⟨hop, hp⟩))⟩

/-- Settles O4: each word is the encoding of its instruction. -/
theorem specWordsDecode : Obligations.SpecWordsDecode := by
  unfold Obligations.SpecWordsDecode
  have hword (i : Instr) (h : i.wellFormed = true) : decodeBytes (encode i) = .ok (i, []) := by
    simpa using decodeBytes_encode i [] h
  exact ⟨hword (.adcImm 0xA5) rfl, hword (.adcAbs 0x12 0xAD) rfl, hword (.ldxZpY 0x62) rfl, hword .rolAcc rfl,
    hword (.jmpInd 0x00 0x14) rfl, hword (.jsrSpecial 0xC0) rfl, hword (.clbZp 5 0x44) rfl,
    hword (.bbcZp 5 0x04 0xF1) rfl⟩

/-- Settles O7: the boundary's fields are those of `State.landed`, and the step is the run of the instruction at PC. -/
theorem stepRunsDecodedInstruction : Obligations.StepRunsDecodedInstruction := by
  unfold Obligations.StepRunsDecodedInstruction
  rintro s u i rest rfl hreset haccepted hr hd - hf hz
  refine ⟨State.landed_inputs s, State.landed_bus s, ?_⟩
  rw [step_of_running hreset haccepted hr, runInstr_of_decodeBytes hd hf hz]
  cases exec i s.landed with
  | next t => simp only [retireResult, State.retire_eq]
  | fault f => rfl
  | refused r => rfl

end Sys2Proof.Machine

/-! The index additions of the addressing modes and the pointer in the zero page as numbers: a zero page sum wraps at a
byte, an absolute one at 16 bits, and a pointer's second byte stays in the zero page; from these O17. -/

namespace Sys2Proof.Machine

open Sys2Proof Sys2Proof.Config

/-- An index addition in the zero page drops its carry (R120). -/
theorem toNat_zpAddr_add (z i : Byte) : (zpAddr (z + i)).toNat = (z.toNat + i.toNat) % 256 := by
  rw [toNat_zpAddr, BitVec.toNat_add]

/-- An absolute index addition is modulo 65536 (R120, D4). -/
theorem toNat_add_zext16 (a : Addr) (i : Byte) : (a + zext16 i).toNat = (a.toNat + i.toNat) % 65536 := by
  rw [BitVec.toNat_add, toNat_zext16]

theorem eq_zpAddr_iff (a : Addr) (z : Byte) : a = zpAddr z ↔ a.toNat = z.toNat := by
  rw [BitVec.toNat_eq, toNat_zpAddr]

/-- The pointer at a zero page byte: its second byte is at the next one modulo 256 (R68, D6). -/
theorem toNat_read16zp {s : State} {z : Byte} {l h : Addr} (hl : l.toNat = z.toNat)
    (hh : h.toNat = (z.toNat + 1) % 256) :
    (s.read16zp z).toNat = 256 * (s.read .pointerHi h).toNat + (s.read .pointerLo l).toNat := by
  have hlow : l = zpAddr z := (eq_zpAddr_iff l z).2 hl
  have hhigh : h = zpAddr (z + 1) := (eq_zpAddr_iff h (z + 1)).2 (by rw [hh, BitVec.toNat_add]; rfl)
  rw [State.read16zp, toNat_join, hlow, hhigh]

/-- Settles O17, mode by mode: the direct modes by the two index additions, the indirect ones by the pointer. -/
theorem effectiveAddresses : Obligations.EffectiveAddresses := by
  unfold Obligations.EffectiveAddresses
  intro s zz ll hh
  refine ⟨toNat_zpAddr zz, toNat_zpAddr_add zz s.x, toNat_zpAddr_add zz s.y, toNat_join hh ll, ?absX, ?absY, ?indX,
    ?indY⟩
  case absX => rw [EaMode.ea, toNat_add_zext16, toNat_join]
  case absY => rw [EaMode.ea, toNat_add_zext16, toNat_join]
  case indX =>
    intro l h hlow hhigh
    have hsum : (zz + s.x).toNat = (zz.toNat + s.x.toNat) % 256 := BitVec.toNat_add zz s.x
    exact toNat_read16zp (by rw [hlow, hsum]) (by rw [hhigh, hsum, Nat.mod_add_mod])
  case indY =>
    intro l h hlow hhigh
    rw [EaMode.ea, toNat_add_zext16, toNat_read16zp hlow hhigh]

end Sys2Proof.Machine

/-! The data transfer instructions: what each line of their pages runs as, what the shared operations under them leave
in the registers, the flags and the memory, and from these O19 to O24. -/

namespace Sys2Proof.Machine

open Sys2Proof Sys2Proof.Config

/-! ### A line of an instruction's page -/

/-- The bytes of an instruction, its cycle number at a state, and the state after it. -/
def RunsAs (i : Instr) (s : State) (bs : List Byte) (c : Nat) (t : State) : Prop :=
  encode i = bs ∧ cycles i s = c ∧ exec i s = .next t

/-- Where neither the T mode nor a branch adds to it, the cycle number is the base number (R360). -/
theorem cycles_eq_baseCycles {i : Instr} {s : State} (ht : modeTCycles i.mnemonic = 0) (hb : takesBranch i s = false) :
    cycles i s = baseCycles i := by
  simp [cycles, ht, hb]

theorem runsAs_baseCycles {i : Instr} {s t : State} (ht : modeTCycles i.mnemonic = 0) (hb : takesBranch i s = false)
    (he : exec i s = .next t) : RunsAs i s (encode i) (baseCycles i) t :=
  ⟨rfl, cycles_eq_baseCycles ht hb, he⟩

theorem runsAs_lda (s : State) (nn zz ll hh : Byte) :
    ∀ r ∈ Rows.lda nn zz ll hh,
      RunsAs r.1 s r.2.2.1 (r.2.2.2 + if s.flag .t then 2 else 0) (s.load r.2.1) := by
  simp only [Rows.lda, List.forall_mem_cons]
  refine ⟨?imm, ?zp, ?zpX, ?abs, ?absX, ?absY, ?indX, ?indY, List.forall_mem_nil _⟩
  all_goals exact ⟨rfl, rfl, rfl⟩

theorem runsAs_ldx (s : State) (nn zz ll hh : Byte) :
    ∀ r ∈ Rows.ldx nn zz ll hh, RunsAs r.1 s r.2.2.1 r.2.2.2 (s.loadX r.2.1) := by
  simp only [Rows.ldx, List.forall_mem_cons]
  refine ⟨?imm, ?zp, ?zpY, ?abs, ?absY, List.forall_mem_nil _⟩
  all_goals exact runsAs_baseCycles rfl rfl rfl

theorem runsAs_ldy (s : State) (nn zz ll hh : Byte) :
    ∀ r ∈ Rows.ldy nn zz ll hh, RunsAs r.1 s r.2.2.1 r.2.2.2 (s.loadY r.2.1) := by
  simp only [Rows.ldy, List.forall_mem_cons]
  refine ⟨?imm, ?zp, ?zpX, ?abs, ?absX, List.forall_mem_nil _⟩
  all_goals exact runsAs_baseCycles rfl rfl rfl

/-- PC goes on by the instruction's own length: LDM takes three bytes, though its address is in the zero page (R152). -/
theorem runsAs_store (s : State) (nn zz ll hh : Byte) :
    ∀ r ∈ Rows.store s nn zz ll hh,
      RunsAs r.1 s r.2.2.2.1 r.2.2.2.2 ((s.write (r.2.1.ea s) r.2.2.1).advance r.1.length) := by
  simp only [Rows.store, List.forall_mem_cons]
  refine ⟨?staZp, ?staZpX, ?staAbs, ?staAbsX, ?staAbsY, ?staIndX, ?staIndY, ?stxZp, ?stxZpY, ?stxAbs, ?styZp, ?styZpX,
    ?styAbs, ?ldmZp, List.forall_mem_nil _⟩
  all_goals exact runsAs_baseCycles rfl rfl rfl

theorem runsAs_push (s : State) : ∀ r ∈ Rows.push s, RunsAs r.1 s [r.2.2] 3 ((s.push r.2.1).advance 1) := by
  simp only [Rows.push, List.forall_mem_cons]
  refine ⟨?pha, ?php, List.forall_mem_nil _⟩
  all_goals exact runsAs_baseCycles rfl rfl rfl

/-! ### N and Z, and the byte written -/

/-- `SetNZ` leaves the N and Z of its value, which the advance of PC keeps (R14). -/
theorem State.nzOf_setNZ_advance (s : State) (v : Byte) (n : Nat) : ((s.setNZ v).advance n).NZOf v := by
  have hzero : (v == 0) = decide (v.toNat = 0) := by
    rw [Bool.eq_iff_iff, beq_iff_eq, decide_eq_true_iff]
    exact BitVec.toNat_eq
  exact ⟨by simp [BitVec.msb_eq_getLsbD_last], by simpa using hzero⟩

theorem State.writtenAt_write (s : State) (a : Addr) (v : Byte) : s.WrittenAt (s.write a v) a v := by
  simp [State.WrittenAt, State.peek_write]

theorem State.writtenAt_push (s : State) (v : Byte) : s.WrittenAt (s.push v) (s.stackAddr s.sp) v :=
  s.writtenAt_write (s.stackAddr s.sp) v

/-- The result goes to A when T is 0, and is written to M(X) when it is 1 (R141). -/
theorem State.putByT_putResult (s : State) (r : Byte) : s.PutByT (s.putResult r) r := by
  constructor
  · intro ht
    simp [ht]
  · intro ht
    exact ⟨by simp [ht], by simp [State.WrittenAt, State.peek_putResult, ht]⟩

/-! ### The stack pointer -/

/-- `S` after a push, as a number (R64, D5). -/
theorem toNat_sub_one (z : Byte) : (z - 1).toNat = (z.toNat + 255) % 256 := by
  rw [BitVec.toNat_sub, Nat.add_comm]
  rfl

/-- `S` after a pull, by its number (R64, D5). -/
theorem eq_add_one_of_toNat {z sp : Byte} (h : z.toNat = (sp.toNat + 1) % 256) : z = sp + 1 := by
  apply BitVec.eq_of_toNat_eq
  rw [h, BitVec.toNat_add]
  rfl

/-! ### The transfers -/

/-- What a transfer does that sets N and Z: `dst` holds what `src` held, and `src` keeps it. -/
theorem runsAs_transfer {i : Instr} {s u : State} {src dst : State → Byte} {op : Byte}
    (hrun : RunsAs i s [op] 2 ((u.setNZ (src s)).advance 1)) (hflags : ∀ f, u.flag f = s.flag f)
    (hdst : dst ((u.setNZ (src s)).advance 1) = src s) (hsrc : src ((u.setNZ (src s)).advance 1) = src s) :
    encode i = [op] ∧ cycles i s = 2 ∧
      ∃ t, exec i s = .next t ∧ dst t = src s ∧ src t = src s ∧ ([Flag.n, .z] ≠ [] → t.NZOf (src s)) ∧
        SameFlagsBut s t [.n, .z] := by
  obtain ⟨hencode, hcycles, hexec⟩ := hrun
  exact ⟨hencode, hcycles, _, hexec, hdst, hsrc, fun _ => u.nzOf_setNZ_advance (src s) 1,
    sameFlagsBut_setNZ hflags (src s)⟩

/-! ### The obligations -/

/-- Settles O19: every line of the page runs as `State.load`, whose result goes where T selects. -/
theorem ldaLoads : Obligations.LdaLoads := by
  unfold Obligations.LdaLoads
  intro s nn zz ll hh i o bs c hrow
  obtain ⟨hencode, hcycles, hexec⟩ := runsAs_lda s nn zz ll hh _ hrow
  obtain ⟨hflags, -⟩ := writesOnly_load s o
  exact ⟨hencode, hcycles, _, hexec, s.putByT_putResult (o.value s), State.nzOf_setNZ_advance _ _ _, hflags⟩

/-- Settles O20: the lines of LDX run as `State.loadX`, those of LDY as `State.loadY`. -/
theorem ldxLdyLoad : Obligations.LdxLdyLoad := by
  unfold Obligations.LdxLdyLoad
  intro s nn zz ll hh i o bs c
  constructor
  · intro hrow
    obtain ⟨hencode, hcycles, hexec⟩ := runsAs_ldx s nn zz ll hh _ hrow
    obtain ⟨hflags, -⟩ := writesOnly_setX_setNZ s (o.value s) o.len
    exact ⟨hencode, hcycles, _, hexec, rfl, State.nzOf_setNZ_advance _ _ _, hflags⟩
  · intro hrow
    obtain ⟨hencode, hcycles, hexec⟩ := runsAs_ldy s nn zz ll hh _ hrow
    obtain ⟨hflags, -⟩ := writesOnly_setY_setNZ s (o.value s) o.len
    exact ⟨hencode, hcycles, _, hexec, rfl, State.nzOf_setNZ_advance _ _ _, hflags⟩

/-- Settles O21: every line of the four pages runs as one write and the advance of PC, which keep every register. -/
theorem storesWrite : Obligations.StoresWrite := by
  unfold Obligations.StoresWrite
  intro s nn zz ll hh i m v bs c hrow
  obtain ⟨hencode, hcycles, hexec⟩ := runsAs_store s nn zz ll hh _ hrow
  refine ⟨hencode, hcycles, _, hexec, s.writtenAt_write (m.ea s) v, ?_⟩
  simp

/-- Settles O23: PHA and PHP each run as one push. -/
theorem phaPhpPush : Obligations.PhaPhpPush := by
  unfold Obligations.PhaPhpPush
  intro s i v op hrow
  obtain ⟨hencode, hcycles, hexec⟩ := runsAs_push s _ hrow
  have hsp : ((s.push v).advance 1).sp.toNat = (s.sp.toNat + 255) % 256 := by
    rw [State.advance_sp, State.push_sp, toNat_sub_one]
  exact ⟨hencode, hcycles, _, hexec, s.writtenAt_push v, hsp, by simp, by simp⟩

/-- Settles O24: both pull from the address of the next `S`; PLA sets N and Z by the pulled byte. -/
theorem plaPlpPull : Obligations.PlaPlpPull := by
  unfold Obligations.PlaPlpPull
  intro s z hz
  obtain rfl : z = s.sp + 1 := eq_add_one_of_toNat hz
  constructor
  case left =>
    obtain ⟨hflags, -⟩ := writesOnly_pullA s .pull1 (s.read .pull1 (s.stackAddr (s.sp + 1))) 1
    exact ⟨rfl, cycles_eq_baseCycles rfl rfl, _, rfl, rfl, rfl, State.nzOf_setNZ_advance _ _ _, hflags, rfl⟩
  case right =>
    exact ⟨rfl, cycles_eq_baseCycles rfl rfl, _, rfl, rfl, rfl, rfl⟩

/-- Settles O22: five transfers set N and Z by the value; the last, TXS, writes `S` and no flag. -/
theorem transfersCopy : Obligations.TransfersCopy := by
  unfold Obligations.TransfersCopy
  intro s i src dst op fs h
  obtain h | h | h | h | h | h := h
  all_goals obtain ⟨rfl, rfl, rfl, rfl, rfl⟩ := h
  case inr.inr.inr.inr.inr =>
    exact ⟨rfl, cycles_eq_baseCycles rfl rfl, _, rfl, rfl, rfl, fun hne => absurd rfl hne,
      sameFlagsBut_of_eq (fun _ => rfl) _⟩
  all_goals exact runsAs_transfer (runsAs_baseCycles rfl rfl rfl) (fun _ => rfl) rfl rfl

end Sys2Proof.Machine

/-! The arithmetic instructions: what each line of their pages runs as, the sums, differences, products and quotients as
numbers, and from these O25 to O31. -/

namespace Sys2Proof.Machine

open Sys2Proof Sys2Proof.Config

/-! ### The end of ADC and SBC -/

/-- What ADC and SBC end with: the result goes where T selects, the four flags are written, and PC advances (R180). -/
def State.putArith (s : State) (out : ArithOut) (n : Nat) : State := ((s.putResult out.result).setArith out).advance n

theorem runsAs_adc (s : State) (nn zz ll hh : Byte) :
    ∀ r ∈ Rows.adc nn zz ll hh,
      RunsAs r.1 s r.2.2.1 (r.2.2.2 + if s.flag .t then 3 else 0)
        (s.putArith (s.addOut s.firstOperand (r.2.1.value s)) r.1.length) := by
  simp only [Rows.adc, List.forall_mem_cons]
  refine ⟨?imm, ?zp, ?zpX, ?abs, ?absX, ?absY, ?indX, ?indY, List.forall_mem_nil _⟩
  all_goals exact ⟨rfl, rfl, rfl⟩

theorem runsAs_sbc (s : State) (nn zz ll hh : Byte) :
    ∀ r ∈ Rows.sbc nn zz ll hh,
      RunsAs r.1 s r.2.2.1 (r.2.2.2 + if s.flag .t then 3 else 0)
        (s.putArith (s.subOut s.firstOperand (r.2.1.value s)) r.1.length) := by
  simp only [Rows.sbc, List.forall_mem_cons]
  refine ⟨?imm, ?zp, ?zpX, ?abs, ?absX, ?absY, ?indX, ?indY, List.forall_mem_nil _⟩
  all_goals exact ⟨rfl, rfl, rfl⟩

@[simp] theorem State.putArith_flag_v (s : State) (out : ArithOut) (n : Nat) : (s.putArith out n).flag .v = out.v := by
  simp [State.putArith]

@[simp] theorem State.putArith_flag_c (s : State) (out : ArithOut) (n : Nat) : (s.putArith out n).flag .c = out.c := by
  simp [State.putArith]

@[simp] theorem State.putArith_pc (s : State) (out : ArithOut) (n : Nat) :
    (s.putArith out n).pc = s.pc + BitVec.ofNat 16 n := by
  simp [State.putArith]

theorem State.putByT_putArith (s : State) (out : ArithOut) (n : Nat) : s.PutByT (s.putArith out n) out.result :=
  s.putByT_putResult out.result

theorem sameFlagsBut_putArith (s : State) (out : ArithOut) (n : Nat) :
    SameFlagsBut s (s.putArith out n) [.n, .v, .z, .c] :=
  sameFlagsBut_setArith (State.putResult_flag s out.result) out

/-- The flags of a binary sum are the ones `SetNZ` would write for its result. -/
theorem State.nzOf_putArith (s : State) {out : ArithOut} (n : Nat) (hn : out.n = out.result.msb)
    (hz : out.z = (out.result == 0)) : (s.putArith out n).NZOf out.result := by
  have h := s.nzOf_setNZ_advance out.result n
  simpa [State.NZOf, State.putArith, hn, hz] using h

/-! ### Binary sums and differences as numbers -/

theorem State.addOut_of_binary {s : State} (hd : s.flag .d = false) (d m : Byte) :
    s.addOut d m = addBinary d m (s.flag .c) := by
  simp [State.addOut, hd]

theorem State.subOut_of_binary {s : State} (hd : s.flag .d = false) (d m : Byte) :
    s.subOut d m = subBinary d m (s.flag .c) := by
  simp [State.subOut, hd]

theorem signedOverflow_iff (t : Int) : signedOverflow t = true ↔ t > 127 ∨ t < -128 := by
  simp [signedOverflow]

theorem toNat_addBinary_result (d m : Byte) (c : Bool) :
    (addBinary d m c).result.toNat = (d.toNat + m.toNat + c.toNat) % 256 := BitVec.toNat_ofNat ..

theorem addBinary_v_iff (d m : Byte) (c : Bool) :
    (addBinary d m c).v = true ↔ d.toInt + m.toInt + c.toNat > 127 ∨ d.toInt + m.toInt + c.toNat < -128 :=
  signedOverflow_iff _

/-- The sign bit of a byte, by its unsigned value. -/
theorem getLsbD_seven (b : Byte) : b.getLsbD 7 = decide (128 ≤ b.toNat) := BitVec.msb_eq_decide b

/-- The signed value of a byte, by its unsigned value. -/
theorem toInt_byte (b : Byte) : b.toInt = if b.toNat < 128 then (b.toNat : Int) else b.toNat - 256 := by
  rw [BitVec.toInt_eq_toNat_cond]
  split <;> split <;> omega

/-- A sum is outside the signed range exactly when its operands have one sign and the result has the other (R33). -/
theorem addBinary_v_iff_signs (d m : Byte) (c : Bool) :
    (addBinary d m c).v = true ↔
      d.getLsbD 7 = m.getLsbD 7 ∧ (addBinary d m c).result.getLsbD 7 ≠ d.getLsbD 7 := by
  have hd := d.isLt
  have hm := m.isLt
  have hc := c.toNat_lt
  rw [addBinary_v_iff, toInt_byte, toInt_byte]
  simp only [getLsbD_seven, toNat_addBinary_result, ne_eq, decide_eq_decide]
  split <;> split <;> omega

/-- The borrow that comes in is the complement of the carry (R182). -/
theorem borrow_eq_one_sub_carry (c : Bool) : (((!c).toNat : Nat) : Int) = 1 - c.toNat := by
  cases c <;> rfl

/-- A difference is the sum with the complement of the second operand (R182). -/
theorem subBinary_eq_addBinary (d m : Byte) (c : Bool) : subBinary d m c = addBinary d (~~~m) c := by
  have hm := m.isLt
  have hnot : (~~~m).toNat = 255 - m.toNat := BitVec.toNat_not
  have hsigned : d.toInt - m.toInt - (!c).toNat = d.toInt + (~~~m).toInt + c.toNat := by
    rw [borrow_eq_one_sub_carry, toInt_byte m, toInt_byte (~~~m), hnot]
    split <;> split <;> omega
  have hunsigned : ((d.toNat : Int) - m.toNat - (!c).toNat) = (d.toNat + (~~~m).toNat + c.toNat : Nat) - 256 := by
    rw [borrow_eq_one_sub_carry, hnot]
    omega
  have hresult : BitVec.ofInt 8 ((d.toNat : Int) - m.toNat - (!c).toNat) =
      BitVec.ofNat 8 (d.toNat + (~~~m).toNat + c.toNat) := by
    apply BitVec.eq_of_toNat_eq
    rw [hunsigned, BitVec.toNat_ofInt, BitVec.toNat_ofNat]
    omega
  simp only [subBinary, addBinary, hsigned, hresult, ArithOut.mk.injEq, decide_eq_decide, true_and]
  omega

theorem toNat_subBinary_result (d m : Byte) (c : Bool) :
    ((subBinary d m c).result.toNat : Int) = ((d.toNat : Int) - m.toNat - (1 - c.toNat)) % 256 := by
  rw [← borrow_eq_one_sub_carry, subBinary, BitVec.toNat_ofInt]
  omega

theorem subBinary_c (d m : Byte) (c : Bool) :
    (subBinary d m c).c = decide ((d.toNat : Int) - m.toNat - (1 - c.toNat) ≥ 0) := by
  rw [← borrow_eq_one_sub_carry, subBinary]

theorem subBinary_v_iff (d m : Byte) (c : Bool) :
    (subBinary d m c).v = true ↔
      d.toInt - m.toInt - (1 - c.toNat) > 127 ∨ d.toInt - m.toInt - (1 - c.toNat) < -128 := by
  rw [← borrow_eq_one_sub_carry]
  exact signedOverflow_iff _

/-- A difference is outside the signed range exactly when its operands have different signs and the result has not the
sign of the first (R33). -/
theorem subBinary_v_iff_signs (d m : Byte) (c : Bool) :
    (subBinary d m c).v = true ↔
      d.getLsbD 7 ≠ m.getLsbD 7 ∧ (subBinary d m c).result.getLsbD 7 ≠ d.getLsbD 7 := by
  have hsign : (~~~m).getLsbD 7 = !m.getLsbD 7 := by simp
  rw [subBinary_eq_addBinary, addBinary_v_iff_signs, hsign, Bool.eq_not]

/-! ### Decimal sums and differences as numbers -/

theorem State.addOut_of_decimal {s : State} (hd : s.flag .d = true) (d m : Byte) :
    s.addOut d m = addDecimal s.draws d m (s.flag .c) := by
  simp [State.addOut, hd]

theorem State.subOut_of_decimal {s : State} (hd : s.flag .d = true) (d m : Byte) :
    s.subOut d m = subDecimal s.draws d m (s.flag .c) := by
  simp [State.subOut, hd]

theorem bcdValid_iff (b : Byte) : bcdValid b = true ↔ b.toNat / 16 ≤ 9 ∧ b.toNat % 16 ≤ 9 := by
  simp [bcdValid]

/-- The packed decimal number of 0 to 99, by its two digits (R183). -/
theorem toNat_bcd {n : Nat} (h : n < 100) : (bcd n).toNat = n / 10 * 16 + n % 10 := by
  rw [bcd, BitVec.toNat_ofNat]
  omega

/-- `r` is the packed decimal result of the value `x`: its two digits are those of `x` modulo 100, and C is `c`. -/
def ArithOut.IsPacked (r : ArithOut) (x : Int) (c : Bool) : Prop :=
  r.result.toNat / 16 ≤ 9 ∧ r.result.toNat % 16 ≤ 9 ∧ (dec r.result : Int) = x % 100 ∧ r.c = c

theorem isPacked_decimalOut (k : Nat) {n : Nat} {x : Int} (c : Bool) (hn : (n : Int) = x % 100) :
    (decimalOut k true (bcd n) c).IsPacked x c := by
  have hbcd := toNat_bcd (n := n) (by omega)
  refine ⟨?tens, ?units, ?value, rfl⟩
  case tens =>
    show (bcd n).toNat / 16 ≤ 9
    omega
  case units =>
    show (bcd n).toNat % 16 ≤ 9
    omega
  case value =>
    show ((10 * ((bcd n).toNat / 16) + (bcd n).toNat % 16 : Nat) : Int) = x % 100
    omega

theorem isPacked_addDecimal (k : Nat) {d m : Byte} (c : Bool) (hd : bcdValid d = true) (hm : bcdValid m = true) :
    (addDecimal k d m c).IsPacked (dec d + dec m + c.toNat) (decide ((dec d + dec m + c.toNat : Int) > 99)) := by
  have hc : decide (dec d + dec m + c.toNat > 99) = decide ((dec d + dec m + c.toNat : Int) > 99) := by
    rw [decide_eq_decide]
    omega
  rw [addDecimal, hd, hm, ← hc]
  exact isPacked_decimalOut k _ (by omega)

theorem isPacked_subDecimal (k : Nat) {d m : Byte} (c : Bool) (hd : bcdValid d = true) (hm : bcdValid m = true) :
    (subDecimal k d m c).IsPacked (dec d - dec m - (1 - c.toNat))
      (decide ((dec d - dec m - (1 - c.toNat) : Int) ≥ 0)) := by
  rw [subDecimal, hd, hm, borrow_eq_one_sub_carry]
  exact isPacked_decimalOut k _ (by omega)

/-! ### Increment and decrement -/

/-- A byte takes a value in A or in memory, N and Z are those of the value, and PC advances (R184, R185). -/
def State.putNZ (s : State) (p : Option EaMode) (r : Byte) (n : Nat) : State :=
  match p with
  | none => ({ s with a := r }.setNZ r).advance n
  | some m => ((s.write (m.ea s) r).setNZ r).advance n

theorem State.holdsAt_putNZ (s : State) (p : Option EaMode) (r : Byte) (n : Nat) : s.HoldsAt (s.putNZ p r n) p r := by
  cases p with
  | none => rfl
  | some m => exact s.writtenAt_write (m.ea s) r

theorem State.nzOf_putNZ (s : State) (p : Option EaMode) (r : Byte) (n : Nat) : (s.putNZ p r n).NZOf r := by
  cases p with
  | none => exact State.nzOf_setNZ_advance _ r n
  | some m => exact State.nzOf_setNZ_advance _ r n

theorem sameFlagsBut_putNZ (s : State) (p : Option EaMode) (r : Byte) (n : Nat) :
    SameFlagsBut s (s.putNZ p r n) [.n, .z] := by
  cases p with
  | none => exact sameFlagsBut_setNZ (t := { s with a := r }) (fun _ => rfl) r
  | some m => exact sameFlagsBut_setNZ (State.write_flag s (m.ea s) r) r

theorem toNat_add_one (z : Byte) : (z + 1).toNat = (z.toNat + 1) % 256 := BitVec.toNat_add ..

theorem runsAs_incDec (s : State) (zz ll hh : Byte) :
    ∀ row ∈ Rows.incDec zz ll hh, ∃ r : Byte, r.toNat = ((s.valueAt row.2.1).toNat + row.2.2.2.2) % 256 ∧
      RunsAs row.1 s row.2.2.1 row.2.2.2.1 (s.putNZ row.2.1 r row.1.length) := by
  simp only [Rows.incDec, List.forall_mem_cons]
  refine ⟨?incAcc, ?incZp, ?incZpX, ?incAbs, ?incAbsX, ?decAcc, ?decZp, ?decZpX, ?decAbs, ?decAbsX,
    List.forall_mem_nil _⟩
  case incAcc | incZp | incZpX | incAbs | incAbsX => exact ⟨_, toNat_add_one _, runsAs_baseCycles rfl rfl rfl⟩
  case decAcc | decZp | decZpX | decAbs | decAbsX => exact ⟨_, toNat_sub_one _, runsAs_baseCycles rfl rfl rfl⟩

/-- What an instruction does that puts a value in an index register and sets N and Z of it. -/
theorem runsAs_index {i : Instr} {s u : State} {get : State → Byte} {op v : Byte} {k : Nat}
    (hv : v.toNat = ((get s).toNat + k) % 256) (hrun : RunsAs i s [op] 2 ((u.setNZ v).advance 1))
    (hflags : ∀ f, u.flag f = s.flag f) (hget : get ((u.setNZ v).advance 1) = v) :
    encode i = [op] ∧ cycles i s = 2 ∧
      ∃ t, exec i s = .next t ∧ (get t).toNat = ((get s).toNat + k) % 256 ∧ t.NZOf (get t) ∧
        SameFlagsBut s t [.n, .z] := by
  obtain ⟨hencode, hcycles, hexec⟩ := hrun
  refine ⟨hencode, hcycles, _, hexec, ?_, ?_, sameFlagsBut_setNZ hflags v⟩
  · rw [hget, hv]
  · rw [hget]
    exact u.nzOf_setNZ_advance v 1

/-! ### Multiplication and division -/

/-- What MUL and DIV end with: one byte is pushed, A takes the other, and PC advances (R188, R189). -/
def State.pushSetA (s : State) (p q : Byte) : State := { s.push p with a := q }.advance 2

@[simp] theorem State.pushSetA_a (s : State) (p q : Byte) : (s.pushSetA p q).a = q := rfl

/-- The stack, the flags and PC after the end of MUL and DIV. -/
theorem State.pushSetA_spec (s : State) (p q : Byte) :
    s.WrittenAt (s.pushSetA p q) (s.stackAddr s.sp) p ∧ (s.pushSetA p q).sp.toNat = (s.sp.toNat + 255) % 256 ∧
      (s.pushSetA p q).ps = s.ps ∧ (s.pushSetA p q).pc = s.pc + 2 := by
  have hsp : (s.pushSetA p q).sp.toNat = (s.sp.toNat + 255) % 256 := by
    rw [← toNat_sub_one, ← State.push_sp s p]
    rfl
  exact ⟨s.writtenAt_push p, hsp, by simp [State.pushSetA], by simp [State.pushSetA]⟩

theorem runsAs_mul {s : State} (zz : Byte) (h : s.cfg.hasMulDiv = true) :
    RunsAs (.mulZpX zz) s [0x62, zz] 15 (s.multiply zz) :=
  runsAs_baseCycles rfl rfl (if_pos h)

theorem runsAs_div {s : State} (zz : Byte) (h : s.cfg.hasMulDiv = true) :
    RunsAs (.divZpX zz) s [0xE2, zz] 16 (s.divideBy zz) :=
  runsAs_baseCycles rfl rfl (if_pos h)

/-- The product of two bytes fits in 16 bits. -/
theorem toNat_product (a m : Byte) : (product a m).toNat = a.toNat * m.toNat := by
  have h : a.toNat * m.toNat ≤ 255 * 255 := Nat.mul_le_mul (by omega) (by omega)
  rw [product, BitVec.toNat_ofNat]
  omega

/-- Where the quotient fits, the division gives the quotient and the remainder (R189). -/
theorem divide_of_fits {n : Addr} {dv : Byte} (hzero : dv.toNat ≠ 0) (hfits : n.toNat / dv.toNat ≤ 255) :
    ∃ q r, divide n dv = some (q, r) ∧ q.toNat = n.toNat / dv.toNat ∧ r.toNat = n.toNat % dv.toNat := by
  have hrem := Nat.mod_lt n.toNat (Nat.pos_of_ne_zero hzero)
  refine ⟨_, _, if_pos ⟨hzero, hfits⟩, ?quotient, ?remainder⟩
  case quotient => exact (BitVec.toNat_ofNat ..).trans (Nat.mod_eq_of_lt (Nat.lt_succ_of_le hfits))
  case remainder => exact (BitVec.toNat_ofNat ..).trans (Nat.mod_eq_of_lt (hrem.trans dv.isLt))

theorem State.divideBy_of_some {s : State} {zz q r : Byte} (h : divide (s.dividend zz) s.a = some (q, r)) :
    s.divideBy zz = s.pushSetA (~~~r) q := by
  simp only [State.divideBy, h, State.pushSetA]

/-- DIV always pushes one byte and writes A; where the quotient fits, they are the complement of the remainder and the
quotient (R189, D13). -/
theorem State.divideBy_spec (s : State) (zz : Byte) :
    ∃ p q, s.divideBy zz = s.pushSetA p q ∧
      (s.a.toNat ≠ 0 → (s.dividend zz).toNat / s.a.toNat ≤ 255 →
        q.toNat = (s.dividend zz).toNat / s.a.toNat ∧ 255 - p.toNat = (s.dividend zz).toNat % s.a.toNat) := by
  by_cases hgiven : s.a.toNat ≠ 0 ∧ (s.dividend zz).toNat / s.a.toNat ≤ 255
  · obtain ⟨hzero, hfits⟩ := hgiven
    obtain ⟨q, r, hsome, hq, hr⟩ := divide_of_fits hzero hfits
    have hcomplement : 255 - (~~~r).toNat = r.toNat := by
      rw [BitVec.toNat_not]
      omega
    exact ⟨~~~r, q, State.divideBy_of_some hsome, fun _ _ => ⟨hq, hcomplement.trans hr⟩⟩
  · obtain ⟨p, q, hnext⟩ := s.divideBy_eq zz
    exact ⟨p, q, hnext, fun hzero hfits => absurd ⟨hzero, hfits⟩ hgiven⟩

/-- The dividend: its high byte is at the next zero page location (R189, D6). -/
theorem toNat_dividend {s : State} {zz : Byte} {l h : Addr} (hl : l.toNat = (zz.toNat + s.x.toNat) % 256)
    (hh : h.toNat = (zz.toNat + s.x.toNat + 1) % 256) :
    (s.dividend zz).toNat = 256 * (s.read .dividendHi h).toNat + (s.read .operand l).toNat := by
  have hlow : l = zpAddr (zz + s.x) := (eq_zpAddr_iff l _).2 (by rw [hl, BitVec.toNat_add])
  have hhigh : h = zpAddr (zz + s.x + 1) :=
    (eq_zpAddr_iff h _).2 (by rw [hh, toNat_add_one, BitVec.toNat_add, Nat.mod_add_mod])
  rw [State.dividend, toNat_join, hlow, hhigh]

/-! ### The obligations -/

/-- Settles O30: the pushed byte and A are the two halves of the 16-bit product. -/
theorem mulMultiplies : Obligations.MulMultiplies := by
  unfold Obligations.MulMultiplies
  rintro s zz m hmul rfl
  obtain ⟨hencode, hcycles, hexec⟩ := runsAs_mul zz hmul
  refine ⟨hencode, hcycles, _, _, hexec, ?_, s.pushSetA_spec _ _⟩
  show 256 * (hiByte _).toNat + (loByte _).toNat = _
  rw [← toNat_join, join_hiByte_loByte, toNat_product]
  rfl

/-- Settles O31: DIV ends as MUL does, and where the quotient fits, A and the complement of the pushed byte are quotient
and remainder. -/
theorem divDivides : Obligations.DivDivides := by
  unfold Obligations.DivDivides
  intro s zz l h n hdiv hl hh hn
  obtain ⟨hencode, hcycles, hexec⟩ := runsAs_div zz hdiv
  obtain ⟨p, q, hnext, hgiven⟩ := s.divideBy_spec zz
  obtain ⟨hwritten, hsp, hps, hpc⟩ := s.pushSetA_spec p q
  rw [hnext] at hexec
  refine ⟨hencode, hcycles, _, p, hexec, hwritten, hsp, hps, hpc, fun hzero hfits => ?_⟩
  rw [hn, ← toNat_dividend hl hh] at hfits ⊢
  obtain ⟨hquotient, hremainder⟩ := hgiven hzero hfits
  rw [State.pushSetA_a, hquotient, hremainder]
  exact ⟨(Nat.div_add_mod' _ _).symm, Nat.mod_lt _ (Nat.pos_of_ne_zero hzero)⟩

/-- Settles O25: every line of the page ends with the binary sum, put where T selects. -/
theorem adcBinary : Obligations.AdcBinary := by
  unfold Obligations.AdcBinary
  rintro s nn zz ll hh i o bs c d m hrow rfl rfl hdecimal
  obtain ⟨hencode, hcycles, hexec⟩ := runsAs_adc s nn zz ll hh _ hrow
  rw [State.addOut_of_binary hdecimal] at hexec
  refine ⟨hencode, hcycles, _, _, hexec, s.putByT_putArith _ _, toNat_addBinary_result _ _ _, ?c, ?v, ?signs,
    s.nzOf_putArith _ rfl rfl, sameFlagsBut_putArith s _ _⟩
  case c => exact s.putArith_flag_c _ _
  case v =>
    rw [State.putArith_flag_v]
    exact addBinary_v_iff _ _ _
  case signs =>
    rw [State.putArith_flag_v]
    exact addBinary_v_iff_signs _ _ _

/-- Settles O26: every line of the page ends with the binary difference, put where T selects; the reading with the
complement of the operand is the sum's. -/
theorem sbcBinary : Obligations.SbcBinary := by
  unfold Obligations.SbcBinary
  rintro s nn zz ll hh i o bs c d m hrow rfl rfl hdecimal
  obtain ⟨hencode, hcycles, hexec⟩ := runsAs_sbc s nn zz ll hh _ hrow
  rw [State.subOut_of_binary hdecimal] at hexec
  refine ⟨hencode, hcycles, _, _, hexec, s.putByT_putArith _ _, toNat_subBinary_result _ _ _, ?complement, ?c, ?v,
    ?signs, s.nzOf_putArith _ rfl rfl, sameFlagsBut_putArith s _ _⟩
  case complement =>
    rw [subBinary_eq_addBinary]
    exact toNat_addBinary_result _ _ _
  case c =>
    rw [State.putArith_flag_c]
    exact subBinary_c _ _ _
  case v =>
    rw [State.putArith_flag_v]
    exact subBinary_v_iff _ _ _
  case signs =>
    rw [State.putArith_flag_v]
    exact subBinary_v_iff_signs _ _ _

/-- Settles O27: ADC and SBC end alike, with the decimal sum or the decimal difference, which is packed decimal where
the operands are. -/
theorem decimalArithmetic : Obligations.DecimalArithmetic := by
  unfold Obligations.DecimalArithmetic
  rintro s nn zz ll hh i o bs c sub d m x hrow rfl rfl hdecimal hx
  have hrun : ∃ out, exec i s = .next (s.putArith out i.length) ∧
      (bcdValid s.firstOperand = true → bcdValid (o.value s) = true →
        out.IsPacked x (if sub then decide (x ≥ 0) else decide (x > 99))) := by
    subst hx
    obtain ⟨hadc, rfl⟩ | ⟨hsbc, rfl⟩ := hrow
    · obtain ⟨-, -, hexec⟩ := runsAs_adc s nn zz ll hh _ hadc
      rw [State.addOut_of_decimal hdecimal] at hexec
      exact ⟨_, hexec, isPacked_addDecimal s.draws (s.flag .c)⟩
    · obtain ⟨-, -, hexec⟩ := runsAs_sbc s nn zz ll hh _ hsbc
      rw [State.subOut_of_decimal hdecimal] at hexec
      exact ⟨_, hexec, isPacked_subDecimal s.draws (s.flag .c)⟩
  obtain ⟨out, hexec, hpacked⟩ := hrun
  refine ⟨_, out.result, hexec, s.putByT_putArith out _, sameFlagsBut_putArith s out _, s.putArith_pc out _, ?_⟩
  intro hdTens hdUnits hmTens hmUnits
  rw [State.putArith_flag_c]
  exact hpacked ((bcdValid_iff _).2 ⟨hdTens, hdUnits⟩) ((bcdValid_iff _).2 ⟨hmTens, hmUnits⟩)

/-- Settles O28: every line of the two pages puts the byte one step on in its own place. -/
theorem incDecStep : Obligations.IncDecStep := by
  unfold Obligations.IncDecStep
  intro s zz ll hh i p bs c k hrow
  obtain ⟨r, hr, hencode, hcycles, hexec⟩ := runsAs_incDec s zz ll hh _ hrow
  exact ⟨hencode, hcycles, _, r, hexec, s.holdsAt_putNZ p r _, hr, s.nzOf_putNZ p r _, sameFlagsBut_putNZ s p r _⟩

/-- Settles O29, register by register and up or down. -/
theorem indexSteps : Obligations.IndexSteps := by
  unfold Obligations.IndexSteps
  intro s i get op k h
  obtain ⟨rfl, rfl, rfl, rfl⟩ | ⟨rfl, rfl, rfl, rfl⟩ | ⟨rfl, rfl, rfl, rfl⟩ | ⟨rfl, rfl, rfl, rfl⟩ := h
  case inl => exact runsAs_index (toNat_add_one s.x) (runsAs_baseCycles rfl rfl rfl) (fun _ => rfl) rfl
  case inr.inl => exact runsAs_index (toNat_sub_one s.x) (runsAs_baseCycles rfl rfl rfl) (fun _ => rfl) rfl
  case inr.inr.inl => exact runsAs_index (toNat_add_one s.y) (runsAs_baseCycles rfl rfl rfl) (fun _ => rfl) rfl
  case inr.inr.inr => exact runsAs_index (toNat_sub_one s.y) (runsAs_baseCycles rfl rfl rfl) (fun _ => rfl) rfl

end Sys2Proof.Machine

/-! The logical, comparison, shift and rotate instructions: what each line of their pages runs as, what the shared
operations under them leave in the flags, the shifted bytes as numbers, and from these O32 to O36. -/

namespace Sys2Proof.Machine

open Sys2Proof Sys2Proof.Config

/-! ### AND, ORA and EOR -/

/-- A line of the page of a logical instruction runs as `State.logic` with the operation `op`; T = 1 takes three cycles
more (R200, R360). -/
def RunsLogic (s : State) (op : Byte → Byte → Byte) (r : Instr × Operand × List Byte × Nat) : Prop :=
  RunsAs r.1 s r.2.2.1 (r.2.2.2 + if s.flag .t then 3 else 0) (s.logic r.2.1 op)

theorem runsLogic_and (s : State) (nn zz ll hh : Byte) : ∀ r ∈ Rows.and nn zz ll hh, RunsLogic s (· &&& ·) r := by
  simp only [Rows.and, List.forall_mem_cons]
  refine ⟨?imm, ?zp, ?zpX, ?abs, ?absX, ?absY, ?indX, ?indY, List.forall_mem_nil _⟩
  all_goals exact ⟨rfl, rfl, rfl⟩

theorem runsLogic_ora (s : State) (nn zz ll hh : Byte) : ∀ r ∈ Rows.ora nn zz ll hh, RunsLogic s (· ||| ·) r := by
  simp only [Rows.ora, List.forall_mem_cons]
  refine ⟨?imm, ?zp, ?zpX, ?abs, ?absX, ?absY, ?indX, ?indY, List.forall_mem_nil _⟩
  all_goals exact ⟨rfl, rfl, rfl⟩

theorem runsLogic_eor (s : State) (nn zz ll hh : Byte) : ∀ r ∈ Rows.eor nn zz ll hh, RunsLogic s (· ^^^ ·) r := by
  simp only [Rows.eor, List.forall_mem_cons]
  refine ⟨?imm, ?zp, ?zpX, ?abs, ?absX, ?absY, ?indX, ?indY, List.forall_mem_nil _⟩
  all_goals exact ⟨rfl, rfl, rfl⟩

/-- An operation on bytes works bit by bit as one on bits does. -/
def IsBitwise (op : Byte → Byte → Byte) (f : Bool → Bool → Bool) : Prop :=
  ∀ (d m : Byte) (k : Nat), (op d m).getLsbD k = f (d.getLsbD k) (m.getLsbD k)

/-! ### The byte that RRF stores -/

/-- The low half goes up four bits, the high half down four (R215). -/
theorem toNat_swapHalves (v : Byte) : (swapHalves v).toNat = v.toNat % 16 * 16 + v.toNat / 16 := by
  have hlow : (v.extractLsb' 0 4).toNat = v.toNat % 16 := BitVec.extractLsb'_toNat ..
  have hhigh : (v.extractLsb' 4 4).toNat = v.toNat / 16 := by
    rw [BitVec.extractLsb'_toNat, Nat.shiftRight_eq_div_pow]
    omega
  rw [swapHalves, BitVec.toNat_append, ← Nat.shiftLeft_add_eq_or_of_lt (BitVec.isLt _), hlow, hhigh,
    Nat.shiftLeft_eq]

/-! ### BIT and TST -/

/-- The first two lines are BIT's, the last is TST's. -/
theorem runsAs_bitTst (s : State) (zz ll hh : Byte) :
    ∀ r ∈ Rows.bitTst zz ll hh,
      r.1.mnemonic = .bit ∧ RunsAs r.1 s r.2.2.1 r.2.2.2 (s.bitTest r.2.1) ∨
      r.1.mnemonic = .tst ∧
        RunsAs r.1 s r.2.2.1 r.2.2.2 ((s.setNZ (s.read .operand (r.2.1.ea s))).advance r.1.length) := by
  simp only [Rows.bitTst, List.forall_mem_cons]
  refine ⟨.inl ⟨rfl, ?bitZp⟩, .inl ⟨rfl, ?bitAbs⟩, .inr ⟨rfl, ?tstZp⟩, List.forall_mem_nil _⟩
  all_goals exact runsAs_baseCycles rfl rfl rfl

/-- The flags after BIT (R205). -/
@[simp] theorem State.flag_bitTest (s : State) (m : EaMode) (f : Flag) :
    (s.bitTest m).flag f = match f with
      | .n => (s.read .operand (m.ea s)).getLsbD 7
      | .v => (s.read .operand (m.ea s)).getLsbD 6
      | .z => s.a &&& s.read .operand (m.ea s) == 0
      | .t | .b | .d | .i | .c => s.flag f := by
  cases f <;> simp [State.bitTest, Operand.value]

/-- An AND is zero when the bytes have no set bit in common. -/
theorem and_beq_zero_iff (a v : Byte) : (a &&& v == 0) = true ↔ ∀ k < 8, (a.getLsbD k && v.getLsbD k) = false := by
  rw [beq_iff_eq, BitVec.eq_of_getLsbD_eq_iff]
  simp

/-! ### CMP, CPX and CPY -/

/-- A line of the page of a comparison runs as `State.compare` of the byte `d`, with `extra` cycles more. -/
def RunsCompare (s : State) (d : Byte) (extra : Nat) (r : Instr × Operand × List Byte × Nat) : Prop :=
  RunsAs r.1 s r.2.2.1 (r.2.2.2 + extra) (s.compare d r.2.1)

/-- CMP takes one cycle more when T = 1 (R360). -/
theorem runsCompare_cmp (s : State) (nn zz ll hh : Byte) :
    ∀ r ∈ Rows.cmp nn zz ll hh,
      r.1.mnemonic = .cmp ∧ RunsCompare s s.firstOperand (if s.flag .t then 1 else 0) r := by
  simp only [Rows.cmp, List.forall_mem_cons]
  refine ⟨?imm, ?zp, ?zpX, ?abs, ?absX, ?absY, ?indX, ?indY, List.forall_mem_nil _⟩
  all_goals exact ⟨rfl, rfl, rfl, rfl⟩

theorem runsCompare_cpx (s : State) (nn zz ll hh : Byte) :
    ∀ r ∈ Rows.cpx nn zz ll hh, r.1.mnemonic = .cpx ∧ RunsCompare s s.x 0 r := by
  simp only [Rows.cpx, List.forall_mem_cons]
  refine ⟨?imm, ?zp, ?abs, List.forall_mem_nil _⟩
  all_goals exact ⟨rfl, runsAs_baseCycles rfl rfl rfl⟩

theorem runsCompare_cpy (s : State) (nn zz ll hh : Byte) :
    ∀ r ∈ Rows.cpy nn zz ll hh, r.1.mnemonic = .cpy ∧ RunsCompare s s.y 0 r := by
  simp only [Rows.cpy, List.forall_mem_cons]
  refine ⟨?imm, ?zp, ?abs, List.forall_mem_nil _⟩
  all_goals exact ⟨rfl, runsAs_baseCycles rfl rfl rfl⟩

/-- The N and Z of a comparison are the ones `SetNZ` writes for the difference (R207). -/
theorem State.nzOf_compare (s : State) (d : Byte) (o : Operand) : (s.compare d o).NZOf (d - o.value s) := by
  have h := s.nzOf_setNZ_advance (d - o.value s) o.len
  simpa [State.NZOf, State.compare] using h

theorem State.compare_flag_z (s : State) (d : Byte) (o : Operand) :
    (s.compare d o).flag .z = decide (d = o.value s) := by
  rw [State.compare, State.advance_flag, State.flag_setCompare, Bool.eq_iff_iff, beq_iff_eq, decide_eq_true_iff]
  exact sub_eq_zero

theorem State.compare_flag_c (s : State) (d : Byte) (o : Operand) :
    (s.compare d o).flag .c = decide ((o.value s).toNat ≤ d.toNat) := by
  rw [State.compare, State.advance_flag, State.flag_setCompare]

theorem toNat_sub_byte (d m : Byte) : ((d - m).toNat : Int) = ((d.toNat : Int) - m.toNat) % 256 := by
  have hm := m.isLt
  rw [BitVec.toNat_sub]
  omega

/-! ### Shifts and rotates -/

/-- What a shift or rotate ends with: its result takes the place of the operand in A or in memory, the three flags are
written, and PC advances (R210). -/
def State.putShift (s : State) (p : Option EaMode) (out : ShiftOut) (n : Nat) : State :=
  match p with
  | none => ({ s with a := out.result }.setShift out).advance n
  | some m => ((s.write (m.ea s) out.result).setShift out).advance n

/-- A line of the page of a shift or rotate runs as `f` of the operand and C, put in the operand's place. -/
def RunsShift (s : State) (f : Byte → Bool → ShiftOut) (r : Instr × Option EaMode × List Byte × Nat) : Prop :=
  RunsAs r.1 s r.2.2.1 r.2.2.2 (s.putShift r.2.1 (f (s.valueAt r.2.1) (s.flag .c)) r.1.length)

theorem runsShift_asl (s : State) (zz ll hh : Byte) : ∀ r ∈ Rows.asl zz ll hh, RunsShift s shiftAsl r := by
  simp only [Rows.asl, List.forall_mem_cons]
  refine ⟨?acc, ?zp, ?zpX, ?abs, ?absX, List.forall_mem_nil _⟩
  all_goals exact runsAs_baseCycles rfl rfl rfl

theorem runsShift_lsr (s : State) (zz ll hh : Byte) : ∀ r ∈ Rows.lsr zz ll hh, RunsShift s shiftLsr r := by
  simp only [Rows.lsr, List.forall_mem_cons]
  refine ⟨?acc, ?zp, ?zpX, ?abs, ?absX, List.forall_mem_nil _⟩
  all_goals exact runsAs_baseCycles rfl rfl rfl

theorem runsShift_rol (s : State) (zz ll hh : Byte) : ∀ r ∈ Rows.rol zz ll hh, RunsShift s shiftRol r := by
  simp only [Rows.rol, List.forall_mem_cons]
  refine ⟨?acc, ?zp, ?zpX, ?abs, ?absX, List.forall_mem_nil _⟩
  all_goals exact runsAs_baseCycles rfl rfl rfl

theorem runsShift_ror (s : State) (zz ll hh : Byte) : ∀ r ∈ Rows.ror zz ll hh, RunsShift s shiftRor r := by
  simp only [Rows.ror, List.forall_mem_cons]
  refine ⟨?acc, ?zp, ?zpX, ?abs, ?absX, List.forall_mem_nil _⟩
  all_goals exact runsAs_baseCycles rfl rfl rfl

theorem State.holdsAt_putShift (s : State) (p : Option EaMode) (out : ShiftOut) (n : Nat) :
    s.HoldsAt (s.putShift p out n) p out.result := by
  cases p with
  | none => rfl
  | some m => exact s.writtenAt_write (m.ea s) out.result

theorem sameFlagsBut_putShift (s : State) (p : Option EaMode) (out : ShiftOut) (n : Nat) :
    SameFlagsBut s (s.putShift p out n) [.n, .z, .c] := by
  cases p with
  | none => exact sameFlagsBut_setShift (t := { s with a := out.result }) (fun _ => rfl) out
  | some m => exact sameFlagsBut_setShift (State.write_flag s (m.ea s) out.result) out

theorem State.putShift_flag_n (s : State) (p : Option EaMode) (out : ShiftOut) (n : Nat) :
    (s.putShift p out n).flag .n = out.n := by
  cases p <;> simp [State.putShift]

theorem State.putShift_flag_z (s : State) (p : Option EaMode) (out : ShiftOut) (n : Nat) :
    (s.putShift p out n).flag .z = (out.result == 0) := by
  cases p <;> simp [State.putShift]

theorem State.putShift_flag_c (s : State) (p : Option EaMode) (out : ShiftOut) (n : Nat) :
    (s.putShift p out n).flag .c = out.c := by
  cases p <;> simp [State.putShift]

theorem State.nzOf_putShift (s : State) (p : Option EaMode) {out : ShiftOut} (n : Nat) (hn : out.n = out.result.msb) :
    (s.putShift p out n).NZOf out.result := by
  have h := s.nzOf_setNZ_advance out.result n
  simpa [State.NZOf, State.putShift_flag_n, State.putShift_flag_z, hn] using h

/-- `o` is the result `q` with the bit `out` shifted out, and its N is bit 7 of the result. -/
def ShiftOut.IsNumbers (o : ShiftOut) (q out : Nat) : Prop :=
  o.result.toNat = q ∧ o.c.toNat = out ∧ o.n = o.result.msb

theorem toNat_bit_seven (v : Byte) : (v.getLsbD 7).toNat = v.toNat / 128 := by
  have h : (v.getLsbD 7).toNat = v.toNat / 2 ^ 7 % 2 := Nat.toNat_testBit v.toNat 7
  omega

theorem toNat_bit_zero (v : Byte) : (v.getLsbD 0).toNat = v.toNat % 2 := by
  have h : (v.getLsbD 0).toNat = v.toNat / 2 ^ 0 % 2 := Nat.toNat_testBit v.toNat 0
  omega

theorem toNat_shiftLeft_one (v : Byte) : (v <<< 1).toNat = 2 * v.toNat % 256 := by
  rw [BitVec.toNat_shiftLeft, Nat.shiftLeft_eq]
  omega

theorem toNat_shiftRight_one (v : Byte) : (v >>> 1).toNat = v.toNat / 2 := by
  rw [BitVec.toNat_ushiftRight, Nat.shiftRight_eq_div_pow, pow_one]

/-- Writing a bit that is 0 adds the bit's weight, or nothing. -/
theorem toNat_withBit_of_clear {v : Byte} {i : Nat} (b : Bool) (hi : i < 8) (hclear : v.getLsbD i = false) :
    (withBit v i b).toNat = v.toNat + 2 ^ i * b.toNat := by
  cases b with
  | false =>
    have hkeep : withBit v i false = v := by
      apply BitVec.eq_of_getLsbD_eq
      intro j hj
      rw [getLsbD_withBit v i j false hi hj]
      split
      · next h => rw [← h, hclear]
      · rfl
    simp [hkeep]
  | true =>
    have hmask : (bitMask i).toNat = 2 ^ i := by interval_cases i <;> rfl
    have hdisjoint : v &&& bitMask i = 0#8 := by
      apply BitVec.eq_of_getLsbD_eq
      intro j hj
      rw [BitVec.getLsbD_and, getLsbD_bitMask i j hi hj]
      by_cases h : i = j
      · simp [← h, hclear]
      · simp [h]
    have hor : withBit v i true = v + bitMask i := (BitVec.add_eq_or_of_and_eq_zero v _ hdisjoint).symm
    rw [hor, BitVec.toNat_add_of_and_eq_zero hdisjoint, hmask, Bool.toNat_true, mul_one]

theorem isNumbers_shiftAsl (v : Byte) (c : Bool) :
    (shiftAsl v c).IsNumbers (2 * v.toNat % 256) (v.toNat / 128) :=
  ⟨toNat_shiftLeft_one v, toNat_bit_seven v, rfl⟩

/-- Bit 7 of the result is 0, as N is (R212). -/
theorem isNumbers_shiftLsr (v : Byte) (c : Bool) : (shiftLsr v c).IsNumbers (v.toNat / 2) (v.toNat % 2) :=
  ⟨toNat_shiftRight_one v, toNat_bit_zero v, by simp [shiftLsr]⟩

theorem isNumbers_shiftRol (v : Byte) (c : Bool) :
    (shiftRol v c).IsNumbers ((2 * v.toNat + c.toNat) % 256) (v.toNat / 128) := by
  refine ⟨?result, toNat_bit_seven v, rfl⟩
  have hc := c.toNat_lt
  rw [shiftRol, toNat_withBit_of_clear c (by decide) (by simp), toNat_shiftLeft_one]
  omega

theorem isNumbers_shiftRor (v : Byte) (c : Bool) :
    (shiftRor v c).IsNumbers (v.toNat / 2 + 128 * c.toNat) (v.toNat % 2) := by
  refine ⟨?result, toNat_bit_zero v, rfl⟩
  rw [shiftRor, toNat_withBit_of_clear c (by decide) (by simp), toNat_shiftRight_one]
  norm_num

/-! ### The obligations -/

/-- Settles O32: every line of the three pages runs as `State.logic` with its own operation, which works bit by bit. -/
theorem logicBitwise : Obligations.LogicBitwise := by
  unfold Obligations.LogicBitwise
  rintro s nn zz ll hh i o bs c f d m hrow rfl rfl
  have hrun : ∃ op, RunsLogic s op (i, o, bs, c) ∧ IsBitwise op f := by
    obtain ⟨hand, rfl⟩ | ⟨hora, rfl⟩ | ⟨heor, rfl⟩ := hrow
    · exact ⟨_, runsLogic_and s nn zz ll hh _ hand, fun _ _ _ => BitVec.getLsbD_and⟩
    · exact ⟨_, runsLogic_ora s nn zz ll hh _ hora, fun _ _ _ => BitVec.getLsbD_or⟩
    · exact ⟨_, runsLogic_eor s nn zz ll hh _ heor, fun _ _ _ => BitVec.getLsbD_xor⟩
  obtain ⟨op, ⟨hencode, hcycles, hexec⟩, hbitwise⟩ := hrun
  obtain ⟨hflags, -⟩ := writesOnly_logic s o op
  exact ⟨hencode, hcycles, _, _, hexec, s.putByT_putResult _, fun k _ => hbitwise _ _ k,
    State.nzOf_setNZ_advance _ _ _, hflags⟩

/-- Settles O33: each of the two writes its byte back where it was read. -/
theorem comRrfModify : Obligations.ComRrfModify := by
  unfold Obligations.ComRrfModify
  rintro s zz v rfl
  constructor
  case left =>
    obtain ⟨hflags, -⟩ := writesOnly_modifyNZ s (.zp zz) (~~~ ·)
    exact ⟨rfl, cycles_eq_baseCycles rfl rfl, _, _, rfl, s.writtenAt_write _ _, BitVec.toNat_not,
      State.nzOf_setNZ_advance _ _ _, hflags⟩
  case right =>
    exact ⟨rfl, cycles_eq_baseCycles rfl rfl, _, _, rfl, s.writtenAt_write _ _, toNat_swapHalves _,
      by simp [State.rotateFour]⟩

/-- Settles O34: BIT writes the flags of `State.bitTest`, TST those of `SetNZ`. -/
theorem bitTstFlags : Obligations.BitTstFlags := by
  unfold Obligations.BitTstFlags
  rintro s zz ll hh i m bs c v hrow rfl
  obtain ⟨hbit, hencode, hcycles, hexec⟩ | ⟨htst, hencode, hcycles, hexec⟩ := runsAs_bitTst s zz ll hh _ hrow
  · obtain ⟨hflags, -⟩ := writesOnly_bitTest s m
    refine ⟨hencode, hcycles, _, hexec, rfl, rfl, s.flag_bitTest m .n, fun _ => ⟨s.flag_bitTest m .v, ?_⟩,
      fun htst => ?_, hflags⟩
    · rw [State.flag_bitTest]
      exact and_beq_zero_iff s.a _
    · simp [hbit] at htst
  · obtain ⟨hn, hz⟩ := s.nzOf_setNZ_advance (s.read .operand (m.ea s)) i.length
    refine ⟨hencode, hcycles, _, hexec, rfl, rfl, hn, fun hbit => ?_, fun _ => ⟨hz, by simp⟩, ?_⟩
    · simp [htst] at hbit
    · intro f hf
      exact sameFlagsBut_setNZ (fun _ => rfl) _ f (by simp_all)

/-- Settles O35: the three compare the byte that their page names, CMP the one that T selects. -/
theorem compares : Obligations.Compares := by
  unfold Obligations.Compares
  rintro s nn zz ll hh i o bs c d m hrow rfl
  have hrun : RunsCompare s d (if i.mnemonic = .cmp ∧ s.flag .t = true then 1 else 0) (i, o, bs, c) := by
    obtain ⟨hcmp, rfl⟩ | ⟨hcpx, rfl⟩ | ⟨hcpy, rfl⟩ := hrow
    · obtain ⟨hmnemonic, hcompare⟩ := runsCompare_cmp s nn zz ll hh _ hcmp
      simpa [hmnemonic, State.firstOperand] using hcompare
    · obtain ⟨hmnemonic, hcompare⟩ := runsCompare_cpx s nn zz ll hh _ hcpx
      simpa [hmnemonic] using hcompare
    · obtain ⟨hmnemonic, hcompare⟩ := runsCompare_cpy s nn zz ll hh _ hcpy
      simpa [hmnemonic] using hcompare
  obtain ⟨hencode, hcycles, hexec⟩ := hrun
  obtain ⟨hflags, -⟩ := writesOnly_compare s d o
  exact ⟨hencode, hcycles, _, _, hexec, toNat_sub_byte d _, s.nzOf_compare d o, s.compare_flag_z d o,
    s.compare_flag_c d o, hflags, rfl, rfl, rfl, rfl⟩

/-- Settles O36: every line of the four pages puts the shifted byte in its own place, with the bit shifted out in C. -/
theorem shiftsAndRotates : Obligations.ShiftsAndRotates := by
  unfold Obligations.ShiftsAndRotates
  rintro s zz ll hh i p bs c v k rfl rfl q out hrow
  have hrun : ∃ f, RunsShift s f (i, p, bs, c) ∧ (f (s.valueAt p) (s.flag .c)).IsNumbers q out := by
    obtain ⟨hasl, rfl, rfl⟩ | ⟨hlsr, rfl, rfl⟩ | ⟨hrol, rfl, rfl⟩ | ⟨hror, rfl, rfl⟩ := hrow
    · exact ⟨_, runsShift_asl s zz ll hh _ hasl, isNumbers_shiftAsl _ _⟩
    · exact ⟨_, runsShift_lsr s zz ll hh _ hlsr, isNumbers_shiftLsr _ _⟩
    · exact ⟨_, runsShift_rol s zz ll hh _ hrol, isNumbers_shiftRol _ _⟩
    · exact ⟨_, runsShift_ror s zz ll hh _ hror, isNumbers_shiftRor _ _⟩
  obtain ⟨f, ⟨hencode, hcycles, hexec⟩, hresult, hout, hn⟩ := hrun
  refine ⟨hencode, hcycles, _, _, hexec, s.holdsAt_putShift p _ _, hresult, ?_, s.nzOf_putShift p _ hn,
    sameFlagsBut_putShift s p _ _⟩
  rw [State.putShift_flag_c, hout]

end Sys2Proof.Machine

/-! The bit managing and flag setting instructions: what each line of their pages runs as, where the written byte stands
and what is kept beside it, and from these O37 and O38. -/

namespace Sys2Proof.Machine

open Sys2Proof Sys2Proof.Config

/-! ### CLB and SEB -/

/-- A byte takes a value in A or in memory, and PC advances; no flag is written (R231, R232). -/
def State.putByte (s : State) (p : Option EaMode) (r : Byte) (n : Nat) : State :=
  match p with
  | none => { s with a := r }.advance n
  | some m => (s.write (m.ea s) r).advance n

theorem State.holdsAt_putByte (s : State) (p : Option EaMode) (r : Byte) (n : Nat) :
    s.HoldsAt (s.putByte p r n) p r := by
  cases p with
  | none => rfl
  | some m => exact s.writtenAt_write (m.ea s) r

@[simp] theorem State.putByte_ps (s : State) (p : Option EaMode) (r : Byte) (n : Nat) :
    (s.putByte p r n).ps = s.ps := by
  cases p <;> simp [State.putByte]

@[simp] theorem State.putByte_pc (s : State) (p : Option EaMode) (r : Byte) (n : Nat) :
    (s.putByte p r n).pc = s.pc + BitVec.ofNat 16 n := by
  cases p <;> simp [State.putByte]

/-- Every line puts the operand with bit `k` written back in its own place. -/
theorem runsAs_clbSeb (s : State) (k : Nat) (zz : Byte) :
    ∀ row ∈ Rows.clbSeb k zz,
      RunsAs row.1 s row.2.2.2.1 row.2.2.2.2
        (s.putByte row.2.1 (withBit (s.valueAt row.2.1) k row.2.2.1) row.2.2.2.1.length) := by
  simp only [Rows.clbSeb, List.forall_mem_cons]
  refine ⟨?clbAcc, ?clbZp, ?sebAcc, ?sebZp, List.forall_mem_nil _⟩
  all_goals exact runsAs_baseCycles rfl rfl rfl

/-! ### The flag instructions -/

theorem runsAs_flagInstr (s : State) :
    ∀ row ∈ Rows.flagInstr, RunsAs row.1 s [row.2.2.2] 2 (s.flagInstr row.2.1 row.2.2.1) := by
  simp only [Rows.flagInstr, List.forall_mem_cons]
  refine ⟨?clc, ?sec, ?cld, ?sed, ?cli, ?sei, ?clt, ?set, ?clv, List.forall_mem_nil _⟩
  all_goals exact runsAs_baseCycles rfl rfl rfl

theorem State.flagInstr_flag_same (s : State) (f : Flag) (b : Bool) : (s.flagInstr f b).flag f = b := by
  rw [State.flagInstr, State.advance_flag, State.flag_setFlag, if_pos rfl]

/-! ### The obligations -/

/-- Settles O37: every line of the two pages puts the byte with bit `k` written in its own place, which writes no
flag. -/
theorem clbSebWriteBit : Obligations.ClbSebWriteBit := by
  unfold Obligations.ClbSebWriteBit
  intro s zz k i p b bs c hk hrow
  obtain ⟨hencode, hcycles, hexec⟩ := runsAs_clbSeb s k zz _ hrow
  have hbits : ∀ j < 8, (withBit (s.valueAt p) k b).getLsbD j = if j = k then b else (s.valueAt p).getLsbD j := by
    intro j hj
    rw [getLsbD_withBit _ k j b hk hj]
    simp only [eq_comm]
  exact ⟨hencode, hcycles, _, _, hexec, s.holdsAt_putByte p _ _, hbits, s.putByte_ps p _ _, s.putByte_pc p _ _⟩

/-- Settles O38: every line runs as `State.flagInstr` of its flag, which writes that flag alone. -/
theorem flagInstructions : Obligations.FlagInstructions := by
  unfold Obligations.FlagInstructions
  intro s i f b op hrow
  obtain ⟨hencode, hcycles, hexec⟩ := runsAs_flagInstr s _ hrow
  obtain ⟨hflags, -⟩ := writesOnly_flagInstr s f b
  exact ⟨hencode, hcycles, _, hexec, s.flagInstr_flag_same f b, hflags⟩

end Sys2Proof.Machine

/-! The jump, branch and return instructions: where a branch goes, what the lines of their pages run as, what bytes
pushed on a safe stack read as when they are pulled again, and from these O39 to O41 and O43 to O45. -/

namespace Sys2Proof.Machine

open Sys2Proof Sys2Proof.Config

/-! ### Branches -/

/-- A displacement is added as a signed number: it extends to its value modulo 65536 (R13). -/
theorem toNat_sext16 (rr : Byte) : ((sext16 rr).toNat : Int) = rr.toInt % 65536 := by
  rw [sext16, BitVec.signExtend, BitVec.toNat_ofInt]
  exact Int.toNat_of_nonneg (Int.emod_nonneg _ (by decide))

/-- Where a branch goes: to the address after the instruction, and on by the displacement if it is taken (R130, D4). -/
theorem State.toNat_branch_pc (s : State) (n : Nat) (rr : Byte) (taken : Bool) :
    ((s.branch n rr taken).pc.toNat : Int) = ((s.pc.toNat : Int) + n + if taken then rr.toInt else 0) % 65536 := by
  have hdisp := toNat_sext16 rr
  rw [State.branch_pc, BitVec.toNat_add, BitVec.toNat_add, BitVec.toNat_ofNat]
  cases taken
  case false =>
    simp only [Bool.false_eq_true, if_false, BitVec.ofNat_eq_ofNat, BitVec.toNat_ofNat]
    omega
  case true =>
    simp only [if_true]
    omega

/-- A branch that is taken adds two cycles (R360). -/
theorem cycles_eq_of_takesBranch {i : Instr} {s : State} {taken : Bool} (ht : modeTCycles i.mnemonic = 0)
    (hb : takesBranch i s = taken) : cycles i s = baseCycles i + 2 * taken.toNat := by
  subst hb
  cases h : takesBranch i s <;> simp [cycles, ht, h]

theorem runsAs_takesBranch {i : Instr} {s t : State} {taken : Bool} (ht : modeTCycles i.mnemonic = 0)
    (hb : takesBranch i s = taken) (he : exec i s = .next t) :
    RunsAs i s (encode i) (baseCycles i + 2 * taken.toNat) t :=
  ⟨rfl, cycles_eq_of_takesBranch ht hb, he⟩

/-- Every line branches when its column says so; BRA's four cycles count its branch already (R252, R264). -/
theorem runsAs_branch (s : State) (rr : Byte) :
    ∀ r ∈ Rows.branch s rr, RunsAs r.1 s [r.2.2.1, rr] r.2.2.2 (s.branch 2 rr r.2.1) := by
  simp only [Rows.branch, List.forall_mem_cons]
  refine ⟨?bra, ?bcc, ?bcs, ?bne, ?beq, ?bpl, ?bmi, ?bvc, ?bvs, List.forall_mem_nil _⟩
  case bra => exact runsAs_baseCycles rfl rfl rfl
  all_goals exact runsAs_takesBranch rfl rfl rfl

/-- The tested byte is the one read now, unless the instruction before wrote a byte there that holds a request bit
(R353). -/
theorem State.testedByte_of_not_written {s : State} {zz : Byte} (h : ∀ x ∈ s.prev.requestBytes, x.1 ≠ zz.toNat) :
    s.testedByte zz = s.read .operand ((EaMode.zp zz).ea s) := by
  have hlookup : s.prev.requestBytes.lookup (zpAddr zz).toNat = none := by
    rw [List.lookup_eq_none_iff, toNat_zpAddr]
    exact fun x hx => bne_iff_ne.2 (h x hx).symm
  rw [State.testedByte, hlookup]
  rfl

/-- Every line branches on bit `k` of A or of the byte that is tested (R254, R255). -/
theorem runsAs_bitBranch (s : State) (k : Nat) (zz rr : Byte) :
    ∀ r ∈ Rows.bitBranch s k zz rr (s.testedByte zz),
      RunsAs r.1 s r.2.2.1 (r.2.2.2 + 2 * r.2.1.toNat) (s.branch r.2.2.1.length rr r.2.1) := by
  simp only [Rows.bitBranch, List.forall_mem_cons]
  refine ⟨?bbcAcc, ?bbcZp, ?bbsAcc, ?bbsZp, List.forall_mem_nil _⟩
  all_goals exact runsAs_takesBranch rfl rfl rfl

/-! ### A safe stack -/

/-- An address that reads as it is stored does so whatever the devices do (R41, R44). -/
theorem State.read_of_plain {s : State} {a : Addr} (h : s.Plain a) (d : Draw) : s.read d a = s.peek a := by
  obtain ⟨hfetch, hcontrol⟩ := h
  refine s.read_memory d a hfetch (s.seen_of_no_request d a fun k hk => hcontrol k.request ?_)
  exact List.mem_append_left _ (List.mem_flatMap.2 ⟨k, hk, by simp⟩)

theorem State.StackSafe.plain {s : State} {n k : Nat} (h : s.StackSafe n) (hk : k < n) :
    s.Plain (s.stackAddr (s.sp - BitVec.ofNat 8 k)) := by
  obtain ⟨hram, hcontrol⟩ := h k hk
  exact ⟨by simp [State.fetchable, hram], hcontrol⟩

theorem State.StackSafe.mono {s : State} {m n : Nat} (h : s.StackSafe n) (hmn : m ≤ n) : s.StackSafe m :=
  fun k hk => h k (Nat.lt_of_lt_of_le hk hmn)

/-- The stack page changes only with the byte of its selection bit (R41). -/
theorem State.stackPage_write {s : State} {a : Addr} (v : Byte) (h : ∀ l ∈ controlBits s.cfg, l.addr ≠ a) :
    (s.write a v).stackPage = s.stackPage := by
  unfold State.stackPage
  rw [State.write_cfg]
  split
  · rfl
  · next l hl =>
    have hmem : l ∈ controlBits s.cfg := by simp [controlBits, hl]
    rw [State.bitAt, State.peek_write_of_ne s v (h l hmem), State.bitAt]

theorem State.stackAddr_inj {s : State} {y z : Byte} : s.stackAddr y = s.stackAddr z ↔ y = z := by
  simp [State.stackAddr, join_inj]

/-! ### Bytes pushed one after the other -/

theorem State.foldl_push_cfg (vs : List Byte) (s : State) : (vs.foldl State.push s).cfg = s.cfg := by
  induction vs generalizing s with
  | nil => rfl
  | cons v vs ih => rw [List.foldl_cons, ih, State.push_cfg]

theorem State.foldl_push_sp (vs : List Byte) (s : State) :
    (vs.foldl State.push s).sp = s.sp - BitVec.ofNat 8 vs.length := by
  induction vs generalizing s with
  | nil => exact (BitVec.sub_zero s.sp).symm
  | cons v vs ih =>
    rw [List.foldl_cons, ih, State.push_sp, List.length_cons]
    bv_omega

/-- Pushes on a safe stack keep its page: none of them goes to the byte of the selection bit. -/
theorem State.foldl_push_stackPage {vs : List Byte} {s : State} (h : s.StackSafe vs.length) :
    (vs.foldl State.push s).stackPage = s.stackPage := by
  induction vs using List.reverseRecOn with
  | nil => rfl
  | append_singleton vs v ih =>
    rw [List.length_append, List.length_singleton] at h
    have hpage := ih (h.mono (Nat.le_succ _))
    obtain ⟨-, hcontrol⟩ := h vs.length (Nat.lt_succ_self _)
    rw [List.foldl_append, ← hpage]
    refine State.stackPage_write v ?_
    rwa [State.foldl_push_cfg, State.foldl_push_sp, State.stackAddr, hpage]

theorem State.foldl_push_stackAddr {vs : List Byte} {s : State} (h : s.StackSafe vs.length) (z : Byte) :
    (vs.foldl State.push s).stackAddr z = s.stackAddr z := by
  rw [State.stackAddr, State.foldl_push_stackPage h, State.stackAddr]

/-- Every byte pushed on a safe stack is stored, and no later push reaches it. -/
theorem State.peek_foldl_push {vs : List Byte} {s : State} (h : s.StackSafe vs.length) (hlen : vs.length ≤ 256)
    {k : Nat} (hk : k < vs.length) : (vs.foldl State.push s).peek (s.stackAddr (s.sp - BitVec.ofNat 8 k)) = vs[k] := by
  induction vs using List.reverseRecOn with
  | nil => exact absurd hk (Nat.not_lt_zero k)
  | append_singleton vs v ih =>
    rw [List.length_append, List.length_singleton] at h hlen hk
    obtain ⟨hram, -⟩ := h vs.length (Nat.lt_succ_self _)
    have hsafe := h.mono (Nat.le_succ _)
    rw [List.foldl_append, List.foldl_cons, List.foldl_nil, State.peek_push, State.foldl_push_cfg, State.foldl_push_sp,
      State.foldl_push_stackAddr hsafe]
    obtain hearlier | rfl := Nat.lt_succ_iff_lt_or_eq.1 hk
    · have hne : s.sp - BitVec.ofNat 8 k ≠ s.sp - BitVec.ofNat 8 vs.length := by bv_omega
      rw [if_neg fun hw => hne (State.stackAddr_inj.1 hw.1), ih hsafe (by omega) hearlier,
        List.getElem_append_left hearlier]
    · rw [if_pos ⟨rfl, by simp [writable, hram]⟩, List.getElem_concat_length rfl]

/-- A byte pushed on a safe stack is read again, at the address that it was pushed to, from any state with the memory
after the pushes. -/
theorem State.read_pushed {vs : List Byte} {s t : State} (h : s.StackSafe vs.length) (hlen : vs.length ≤ 256)
    (hmem : t.mem = (vs.foldl State.push s).mem) (hcfg : t.cfg = s.cfg) {k : Nat} (hk : k < vs.length) (d : Draw) :
    t.read d (t.stackAddr (s.sp - BitVec.ofNat 8 k)) = vs[k] := by
  have haddr : t.stackAddr (s.sp - BitVec.ofNat 8 k) = s.stackAddr (s.sp - BitVec.ofNat 8 k) := by
    rw [State.stackAddr, State.stackPage_congr hmem (hcfg.trans (State.foldl_push_cfg vs s).symm),
      State.foldl_push_stackPage h, State.stackAddr]
  have hplain : t.Plain (s.stackAddr (s.sp - BitVec.ofNat 8 k)) := by
    rw [State.Plain, State.fetchable, hcfg]
    exact h.plain hk
  rw [haddr, State.read_of_plain hplain, State.peek, hmem]
  exact State.peek_foldl_push h hlen hk

/-! ### Calls -/

/-- The address that JSR pushes is that of its own last byte (R253). -/
def State.callReturn (s : State) (len : Nat) : Addr := s.pc + BitVec.ofNat 16 (len - 1)

theorem State.toNat_callReturn (s : State) {len : Nat} (h : 0 < len) :
    (s.callReturn len).toNat = (s.pc.toNat + len - 1) % 65536 := by
  rw [State.callReturn, BitVec.toNat_add, BitVec.toNat_ofNat]
  omega

/-- One beyond that address is the next instruction. -/
theorem State.callReturn_add_one (s : State) {len : Nat} (h : 0 < len) :
    s.callReturn len + 1 = s.pc + BitVec.ofNat 16 len := by
  obtain ⟨n, rfl⟩ := Nat.exists_eq_succ_of_ne_zero h.ne'
  rw [State.callReturn, BitVec.add_assoc]
  exact congrArg (s.pc + ·) (BitVec.ofNat_add n 1).symm

theorem State.call_eq_foldl (s : State) (len : Nat) :
    s.call len = [hiByte (s.callReturn len), loByte (s.callReturn len)].foldl State.push s := rfl

@[simp] theorem State.call_a (s : State) (len : Nat) : (s.call len).a = s.a := by
  simp [State.call, State.push16]
@[simp] theorem State.call_x (s : State) (len : Nat) : (s.call len).x = s.x := by
  simp [State.call, State.push16]
@[simp] theorem State.call_y (s : State) (len : Nat) : (s.call len).y = s.y := by
  simp [State.call, State.push16]
@[simp] theorem State.call_ps (s : State) (len : Nat) : (s.call len).ps = s.ps := by
  simp [State.call, State.push16]
@[simp] theorem State.call_cfg (s : State) (len : Nat) : (s.call len).cfg = s.cfg := by
  simp [State.call, State.push16]
@[simp] theorem State.call_sp (s : State) (len : Nat) : (s.call len).sp = s.sp - 1 - 1 := by
  simp [State.call, State.push16]

/-- On a safe stack the return address stands with its high byte at `S` and its low byte below (R65). -/
theorem State.peek_call {s : State} (h : s.StackSafe 2) (len : Nat) :
    (s.call len).peek (s.stackAddr s.sp) = hiByte (s.callReturn len) ∧
      (s.call len).peek (s.stackAddr (s.sp - 1)) = loByte (s.callReturn len) := by
  have hpushed {k : Nat} (hk : k < 2) :=
    State.peek_foldl_push (vs := [hiByte (s.callReturn len), loByte (s.callReturn len)]) h (Nat.le_add_left 2 254) hk
  rw [State.call_eq_foldl]
  exact ⟨by simpa using hpushed Nat.zero_lt_two, hpushed Nat.one_lt_two⟩

/-- Where a JSR goes from `s`, `t` being the state after its pushes (R253); any other instruction is none. -/
def State.jsrTarget (s t : State) : Instr → Addr
  | .jsrAbs ll hh => join (s.refetched t hh) ll
  | .jsrSpecial ll => join 0xFF ll
  | .jsrZpInd zz => t.read16zp zz
  | _ => t.pc

theorem length_pos_of_jsr (zz ll hh : Byte) : ∀ r ∈ Rows.jsr zz ll hh, 0 < r.1.length := by
  simp only [Rows.jsr, List.forall_mem_cons]
  exact ⟨Nat.succ_pos _, Nat.succ_pos _, Nat.succ_pos _, List.forall_mem_nil _⟩

/-- Every line pushes its return address and then jumps to its target. -/
theorem runsAs_jsr (s : State) (zz ll hh : Byte) :
    ∀ r ∈ Rows.jsr zz ll hh,
      RunsAs r.1 s r.2.1 r.2.2 ((s.call r.1.length).jump (s.jsrTarget (s.call r.1.length) r.1)) := by
  simp only [Rows.jsr, List.forall_mem_cons]
  refine ⟨?abs, ?special, ?zpInd, List.forall_mem_nil _⟩
  all_goals exact runsAs_baseCycles rfl rfl rfl

/-! ### Returns -/

/-- The return from a subroutine reads two bytes above `S` and changes PC and `S` (R265). -/
theorem State.returnFromSubroutine_eq (s : State) :
    s.returnFromSubroutine =
      { s with
        sp := s.sp + 1 + 1
        pc := join (s.read .pull2 (s.stackAddr (s.sp + 1 + 1))) (s.read .pull1 (s.stackAddr (s.sp + 1))) + 1 } := rfl

@[simp] theorem State.returnFromSubroutine_a (s : State) : s.returnFromSubroutine.a = s.a := rfl
@[simp] theorem State.returnFromSubroutine_x (s : State) : s.returnFromSubroutine.x = s.x := rfl
@[simp] theorem State.returnFromSubroutine_y (s : State) : s.returnFromSubroutine.y = s.y := rfl
@[simp] theorem State.returnFromSubroutine_ps (s : State) : s.returnFromSubroutine.ps = s.ps := rfl
@[simp] theorem State.returnFromException_a (s : State) : s.returnFromException.a = s.a := rfl
@[simp] theorem State.returnFromException_x (s : State) : s.returnFromException.x = s.x := rfl
@[simp] theorem State.returnFromException_y (s : State) : s.returnFromException.y = s.y := rfl

/-- RTS undoes the pushes of JSR and goes one beyond the address that they saved (R253, R265). -/
theorem State.returnFromSubroutine_call {s : State} (h : s.StackSafe 2) (len : Nat) (target : Addr) :
    ((s.call len).jump target).returnFromSubroutine.sp = s.sp ∧
      ((s.call len).jump target).returnFromSubroutine.pc = s.callReturn len + 1 := by
  set t := (s.call len).jump target with ht
  have hpulled {k : Nat} (hk : k < 2) (d : Draw) :
      t.read d (t.stackAddr (s.sp - BitVec.ofNat 8 k)) = [hiByte (s.callReturn len), loByte (s.callReturn len)][k] :=
    State.read_pushed (vs := [_, _]) h (Nat.le_add_left 2 254) rfl (s.call_cfg len) hk d
  have hsp₁ : t.sp + 1 = s.sp - BitVec.ofNat 8 1 := by
    rw [ht, State.jump_sp, State.call_sp]
    bv_omega
  have hsp₂ : t.sp + 1 + 1 = s.sp - BitVec.ofNat 8 0 := by
    rw [hsp₁]
    bv_omega
  rw [State.returnFromSubroutine_eq, hsp₂, hsp₁, hpulled (by decide), hpulled (by decide)]
  exact ⟨BitVec.sub_zero s.sp, congrArg (· + 1) (join_hiByte_loByte _)⟩

/-- RTI undoes the pushes of a taken exception: it goes to the saved address with the saved `PS` (R266, R313). -/
theorem State.returnFromException_takeException {s : State} (h : s.StackSafe 3) (brk : Bool) (ret v : Addr)
    (lo hi : Draw) :
    (s.takeException brk ret v lo hi).returnFromException.sp = s.sp ∧
      (s.takeException brk ret v lo hi).returnFromException.pc = ret ∧
      (s.takeException brk ret v lo hi).returnFromException.ps = (s.setFlag .b brk).ps := by
  set t := s.takeException brk ret v lo hi with ht
  have hmem : t.mem = ([hiByte ret, loByte ret, (s.setFlag .b brk).ps].foldl State.push (s.setFlag .b brk)).mem := by
    rw [ht, State.takeException_mem, State.saveContext_eq_foldl, State.setFlag_mem]
  have hpulled {k : Nat} (hk : k < 3) (d : Draw) :
      t.read d (t.stackAddr (s.sp - BitVec.ofNat 8 k)) = [hiByte ret, loByte ret, (s.setFlag .b brk).ps][k] :=
    State.read_pushed (vs := [_, _, _]) (s := s.setFlag .b brk) h (Nat.le_add_left 3 253) hmem (by simp [ht]) hk d
  have hsp₁ : t.sp + 1 = s.sp - BitVec.ofNat 8 2 := by
    rw [ht, State.takeException_sp, State.saveContext_sp]
    bv_omega
  have hsp₂ : t.sp + 1 + 1 = s.sp - BitVec.ofNat 8 1 := by
    rw [hsp₁]
    bv_omega
  have hsp₃ : t.sp + 1 + 1 + 1 = s.sp - BitVec.ofNat 8 0 := by
    rw [hsp₂]
    bv_omega
  rw [State.returnFromException_eq, hsp₃, hsp₂, hsp₁, hpulled (by decide), hpulled (by decide), hpulled (by decide)]
  exact ⟨BitVec.sub_zero s.sp, join_hiByte_loByte ret, rfl⟩

/-- With no source pending BRK takes its own exception (R281, R319). -/
theorem exec_brk_of_no_pending {s : State} (h : s.firstPending = none) : exec .brk s = .next s.takeBreak := by
  show execBrk s = _
  rw [execBrk, h]

/-! ### The obligations -/

/-- Settles O39, mode by mode: the pointer of `JMP ($hhll)` has its high byte at the next address, that of `JMP ($zz)`
at the next one of the zero page. -/
theorem jmpJumps : Obligations.JmpJumps := by
  unfold Obligations.JmpJumps
  intro s zz ll hh
  refine ⟨⟨rfl, cycles_eq_baseCycles rfl rfl, _, rfl, toNat_join hh ll, rfl, rfl⟩,
    ⟨rfl, cycles_eq_baseCycles rfl rfl, ?pageEnd, ?absPointer⟩, rfl, cycles_eq_baseCycles rfl rfl, ?zpPointer⟩
  case pageEnd =>
    rintro rfl
    rfl
  case absPointer =>
    intro p q hll hp hq
    have hlow : join hh ll = p := BitVec.eq_of_toNat_eq (by rw [toNat_join, hp])
    have hhigh : p + 1 = q := BitVec.eq_of_toNat_eq (by bv_omega)
    refine ⟨_, if_neg hll, ?_, rfl, rfl⟩
    rw [State.jump_pc, State.indirectTarget, State.read16, toNat_join, hlow, hhigh]
  case zpPointer =>
    intro p q hp hq
    exact ⟨_, rfl, toNat_read16zp hp hq, rfl, rfl⟩

/-- Settles O40: every line runs as one branch on its column's condition. -/
theorem branches : Obligations.Branches := by
  unfold Obligations.Branches
  intro s rr i taken op c hrow
  obtain ⟨hencode, hcycles, hexec⟩ := runsAs_branch s rr _ hrow
  exact ⟨hencode, hcycles, _, hexec, s.branch_ps 2 rr taken, s.toNat_branch_pc 2 rr taken⟩

/-- Settles O41: where no request bit was just written, the tested byte is the one read now, and every line runs as one
branch on its bit. -/
theorem bitBranches : Obligations.BitBranches := by
  unfold Obligations.BitBranches
  rintro s zz rr k i taken bs c v - rfl hwritten hrow
  rw [← State.testedByte_of_not_written hwritten] at hrow
  obtain ⟨hencode, hcycles, hexec⟩ := runsAs_bitBranch s k zz rr _ hrow
  exact ⟨hencode, hcycles, _, hexec, s.branch_ps _ rr taken, s.branch_a _ rr taken, s.branch_mem _ rr taken,
    s.toNat_branch_pc bs.length rr taken⟩

/-- Settles O43: every line is a call and a jump, so that the return address stands as `State.peek_call` says, and the
target is read from the memory after the pushes. -/
theorem jsrCalls : Obligations.JsrCalls := by
  unfold Obligations.JsrCalls
  intro s zz ll hh i bs c hrow
  obtain ⟨hencode, hcycles, hexec⟩ := runsAs_jsr s zz ll hh _ hrow
  obtain rfl : encode i = bs := hencode
  have hlen : 0 < i.length := length_pos_of_jsr zz ll hh _ hrow
  refine ⟨rfl, hcycles, _, hexec, s.call_ps _, ?sp, ?stack, ?abs, ?special, ?zpInd⟩
  case sp =>
    rw [State.jump_sp, State.call_sp]
    bv_omega
  case stack =>
    rintro hsafe ret rfl
    obtain ⟨hhigh, hlow⟩ := State.peek_call hsafe i.length
    rw [State.jump_peek, State.jump_peek, hhigh, hlow, toNat_hiByte, toNat_loByte, s.toNat_callReturn hlen]
    exact ⟨rfl, rfl⟩
  case abs =>
    rintro rfl
    rw [State.jump_pc, State.jump_peek, State.jsrTarget, toNat_join, State.refetched]
    constructor
    · intro hkept
      rw [if_pos hkept]
    · intro hchanged
      rw [if_neg hchanged]
  case special =>
    rintro rfl
    exact toNat_join 0xFF ll
  case zpInd =>
    rintro rfl p q hp hq
    rw [State.jump_pc, State.jump_read, State.jump_read]
    exact toNat_read16zp hp hq

/-- Settles O44: both read above `S`, at the addresses of `S` one, two and three greater. -/
theorem rtsRtiReturn : Obligations.RtsRtiReturn := by
  unfold Obligations.RtsRtiReturn
  intro s x y z hx hy hz
  obtain rfl : x = s.sp + 1 := eq_add_one_of_toNat hx
  obtain rfl : y = s.sp + 1 + 1 := BitVec.eq_of_toNat_eq (by bv_omega)
  obtain rfl : z = s.sp + 1 + 1 + 1 := BitVec.eq_of_toNat_eq (by bv_omega)
  refine ⟨⟨rfl, cycles_eq_baseCycles rfl rfl, _, rfl, rfl, rfl, ?_⟩,
    rfl, cycles_eq_baseCycles rfl rfl, _, rfl, rfl, rfl, toNat_join _ _⟩
  rw [State.returnFromSubroutine_eq, BitVec.toNat_add, toNat_join]
  rfl

/-- Settles O45: on a safe stack RTS undoes the pushes of a call, and RTI those of a break. -/
theorem returnsResume : Obligations.ReturnsResume := by
  unfold Obligations.ReturnsResume
  intro s zz ll hh
  constructor
  case left =>
    intro i hi hsafe
    obtain ⟨r, hrow, rfl⟩ : ∃ r ∈ Rows.jsr zz ll hh, r.1 = i := by simpa [Rows.jsr, eq_comm] using hi
    obtain ⟨-, -, hexec⟩ := runsAs_jsr s zz ll hh r hrow
    obtain ⟨hsp, hpc⟩ := State.returnFromSubroutine_call hsafe r.1.length (s.jsrTarget (s.call r.1.length) r.1)
    refine ⟨_, _, hexec, rfl, ?_, hsp, by simp, by simp, by simp, by simp⟩
    rw [hpc, s.callReturn_add_one (length_pos_of_jsr zz ll hh r hrow)]
  case right =>
    intro hsafe hpending
    obtain ⟨hsp, hpc, hps⟩ := State.returnFromException_takeException hsafe true (s.pc + 2) s.cfg.brkVector
      .brkVectorLo .brkVectorHi
    have hflag := State.flag_congr hps
    exact ⟨s.takeBreak, _, exec_brk_of_no_pending hpending, rfl, hpc, hsp, (hflag .b).trans (by simp),
      fun f hf => (hflag f).trans (sameFlagsBut_setFlag (fun _ => rfl) .b true f hf), by simp [State.takeBreak],
      by simp [State.takeBreak], by simp [State.takeBreak]⟩

end Sys2Proof.Machine

/-! The interrupt, special and other instructions: what a taken exception has saved and where it goes, what STP does in
each of its modes, and from these O46 and O48. -/

namespace Sys2Proof.Machine

open Sys2Proof Sys2Proof.Config

/-! ### Taking an exception -/

theorem State.takeException_flag (s : State) (brk : Bool) (ret v : Addr) (lo hi : Draw) (f : Flag) :
    (s.takeException brk ret v lo hi).flag f = ((s.setFlag .b brk).setFlag .i true).flag f := by
  refine State.flag_congr ?_ f
  rw [State.takeException_ps, State.saveContext_ps]

/-- On a safe stack the three bytes of the context stand at `S` and at the two addresses below it (R281, R306). -/
theorem State.peek_takeException {s : State} (h : s.StackSafe 3) (brk : Bool) (ret v : Addr) (lo hi : Draw) :
    (s.takeException brk ret v lo hi).peek (s.stackAddr s.sp) = hiByte ret ∧
      (s.takeException brk ret v lo hi).peek (s.stackAddr (s.sp - 1)) = loByte ret ∧
      (s.takeException brk ret v lo hi).peek (s.stackAddr (s.sp - 2)) = (s.setFlag .b brk).ps := by
  have hpushed {k : Nat} (hk : k < 3) :
      (s.takeException brk ret v lo hi).peek (s.stackAddr (s.sp - BitVec.ofNat 8 k)) =
        [hiByte ret, loByte ret, (s.setFlag .b brk).ps][k] := by
    rw [State.peek, State.takeException_mem, State.saveContext_eq_foldl]
    exact State.peek_foldl_push (vs := [_, _, _]) (s := s.setFlag .b brk) h (Nat.le_add_left 3 253) hk
  exact ⟨by simpa using hpushed (Nat.zero_lt_succ 2), hpushed (k := 1) (by decide), hpushed (k := 2) (by decide)⟩

/-- Whatever the vector, a taken exception has saved the context (R281, R306). -/
theorem State.savedContext_takeException (s : State) (brk : Bool) (ret v : Addr) (lo hi : Draw) :
    s.SavedContext (s.takeException brk ret v lo hi) ret brk := by
  have hflag := s.takeException_flag brk ret v lo hi
  refine ⟨?sp, by simp [hflag], by simp [hflag], ?flags, ?stack⟩
  case sp =>
    rw [State.takeException_sp, State.saveContext_sp]
    bv_omega
  case flags =>
    intro f hf
    obtain ⟨hneI, hneB⟩ : f ≠ .i ∧ f ≠ .b := by simpa using hf
    rw [hflag, State.flag_setFlag, if_neg hneI.symm, State.flag_setFlag, if_neg hneB.symm]
  case stack =>
    intro hsafe
    obtain ⟨hhigh, hlow, hps⟩ := State.peek_takeException hsafe brk ret v lo hi
    refine ⟨by rw [hhigh, toNat_hiByte], by rw [hlow, toNat_loByte], fun f => ?_⟩
    rw [hps]
    exact (s.flag_setFlag .b f brk).trans (if_congr eq_comm rfl rfl)

/-- PC is the vector as the memory after the pushes has it (R281, R307). -/
theorem State.toNat_takeException_pc (s : State) (brk : Bool) (ret v : Addr) (lo hi : Draw) :
    (s.takeException brk ret v lo hi).pc.toNat =
      256 * ((s.takeException brk ret v lo hi).read hi (v + 1)).toNat +
        ((s.takeException brk ret v lo hi).read lo v).toNat :=
  toNat_join _ _

/-! ### STP in its three modes -/

theorem exec_stp_enabled {s : State} (h : s.cfg.stpMode = .enabled) :
    exec .stp s = .next { s with pc := s.pc + 1, run := .stop } := by
  show execStp s = _
  rw [execStp, h]
  rfl

theorem exec_stp_disabled {s : State} (h : s.cfg.stpMode = .disabled) :
    exec .stp s = .next { s with pc := s.pc + 1 } := by
  show execStp s = _
  rw [execStp, h]
  rfl

theorem exec_stp_absent {s : State} (h : s.cfg.stpMode = .absent) :
    exec .stp s = .refused (.undefinedOpcode 0x42) := by
  show execStp s = _
  rw [execStp, h]

/-! ### The obligations -/

/-- Settles O46: with no source pending BRK takes its own exception, which saves the context and loads PC from the
vector read after the pushes. -/
theorem brkBreaks : Obligations.BrkBreaks := by
  unfold Obligations.BrkBreaks
  intro s hpending
  exact ⟨rfl, cycles_eq_baseCycles rfl rfl, s.takeBreak, exec_brk_of_no_pending hpending,
    s.savedContext_takeException true (s.pc + 2) s.cfg.brkVector .brkVectorLo .brkVectorHi,
    s.toNat_takeException_pc true (s.pc + 2) s.cfg.brkVector .brkVectorLo .brkVectorHi⟩

/-- Settles O48: WIT and NOP run the same way on every product, STP as its mode says. -/
theorem witStpNop : Obligations.WitStpNop := by
  unfold Obligations.WitStpNop
  intro s
  exact ⟨⟨rfl, cycles_eq_baseCycles rfl rfl, rfl⟩, ⟨rfl, cycles_eq_baseCycles rfl rfl, rfl⟩, rfl,
    cycles_eq_baseCycles rfl rfl, exec_stp_enabled, exec_stp_disabled, exec_stp_absent⟩

end Sys2Proof.Machine

/-! When an instruction completes, what the requests and the acceptance test of a boundary come to, the boundaries of a
standby state and the reset, and from these O16, O52, O54, O58 and O59. -/

namespace Sys2Proof.Machine

open Sys2Proof Sys2Proof.Config

/-! ### Which instructions complete -/

/-- A result is a next state where there is no reason to stop, and the refusal with the reason where there is one. -/
def StopsFor (reason : Option Refusal) (r : Result) : Prop :=
  (reason = none → ∃ t, r = .next t) ∧ ∀ e, reason = some e → r = .refused e

theorem stopsFor_next (t : State) : StopsFor none (.next t) := ⟨fun _ => ⟨t, rfl⟩, nofun⟩

theorem stopsFor_refused (e : Refusal) : StopsFor (some e) (.refused e) := ⟨nofun, fun _ h => by cases h; rfl⟩

/-- An instruction that some products do not have (R6, R188, R189). -/
theorem stopsFor_ite (c : Bool) (e : Refusal) (t : State) :
    StopsFor (if c then none else some e) (if c then .next t else .refused e) := by
  cases c
  · exact stopsFor_refused e
  · exact stopsFor_next t

/-- STP in each of its modes (R283). -/
theorem stopsFor_execStp (s : State) : StopsFor (stopReason .stp s) (execStp s) := by
  unfold stopReason execStp
  cases s.cfg.stpMode
  case enabled | disabled => exact stopsFor_next _
  case absent => exact stopsFor_refused _

/-- `JMP ($hhll)` stops for a pointer at the last byte of a page alone (R69). -/
theorem stopsFor_execJmpInd (ll hh : Byte) (s : State) :
    StopsFor (stopReason (.jmpInd ll hh) s) (execJmpInd ll hh s) := by
  show StopsFor (if ll = 0xFF then some .jmpIndirectPageEnd else none) (execJmpInd ll hh s)
  unfold execJmpInd
  split
  · exact stopsFor_refused _
  · exact stopsFor_next _

/-- BRK completes whatever is pending (R319). -/
theorem stopsFor_execBrk (s : State) : StopsFor none (execBrk s) := by
  unfold execBrk
  split <;> exact stopsFor_next _

/-- Settles O16: four meanings have a refusal, for the reason that `stopReason` gives, and every other one is a next
state. -/
theorem execCompletesOrStops : Obligations.ExecCompletesOrStops := by
  unfold Obligations.ExecCompletesOrStops
  intro i s
  show StopsFor (stopReason i s) (exec i s)
  cases i
  case mulZpX | divZpX => exact stopsFor_ite _ _ _
  case stp => exact stopsFor_execStp s
  case jmpInd ll hh => exact stopsFor_execJmpInd ll hh s
  case brk => exact stopsFor_execBrk s
  all_goals exact stopsFor_next _

/-! ### The requests of a boundary -/

theorem lands_iff (s : State) (n : Nat) :
    lands s n = true ↔ ∃ k, s.cfg.sources[n]? = some k ∧ (s.run = .stop → k.external = true) := by
  unfold lands
  cases s.cfg.sources[n]? with
  | none => simp
  | some k => by_cases h : s.run = .stop <;> simp [h]

/-- Settles O52: a bit of memory by the requests that arrive and raise it, and the registers by the fields that the
boundary keeps. -/
theorem requestsArrive : Obligations.RequestsArrive := by
  unfold Obligations.RequestsArrive
  refine fun s => ⟨fun a j hj => ?_, by simp⟩
  rw [State.getLsbD_peek_landed s a j hj, Bool.or_eq_true, List.any_eq_true]
  simp only [Bool.and_eq_true, lands_iff, raisesBit_iff]
  refine or_congr_right (exists_congr fun n => and_congr_right fun _ => ?_)
  constructor
  · rintro ⟨⟨k, hk, hexternal⟩, _, hk', haddr, hbit, hw⟩
    obtain rfl := Option.some.inj (hk.symm.trans hk')
    exact ⟨k, hk, haddr, hbit, hw, hexternal⟩
  · rintro ⟨k, hk, haddr, hbit, hw, hexternal⟩
    exact ⟨⟨k, hk, hexternal⟩, k, hk, haddr, hbit, hw⟩

/-! ### The acceptance test -/

theorem State.isAcceptable_iff (s : State) (k : IntSource) :
    s.isAcceptable k = true ↔ s.bitAt k.request = true ∧ s.bitAt k.enable = true ∧ s.flag .i = false := by
  simp [State.isAcceptable, State.isPending, and_assoc]

theorem State.requesting_iff (s : State) (inp : Input) (k : IntSource) :
    s.requesting inp k = true ↔ s.Requests inp k := by
  rw [State.requesting, Bool.or_eq_true, State.isAcceptable_iff]
  simp only [Bool.and_eq_true, List.contains_iff_mem, Bool.not_eq_true', State.Requests]
  tauto

theorem State.accepted_of_not_delayed (s : State) {inp : Input} (h : inp.delayed = false) :
    s.accepted inp = s.cfg.sources.find? (s.requesting inp) := by
  simp [State.accepted, h]

/-- While I is 1 no source is accepted, not even a raced one (R303, R323). -/
theorem accepted_of_flag_i {s : State} (h : s.flag .i = true) (inp : Input) : s.accepted inp = none := by
  unfold State.accepted
  split
  · rfl
  · refine List.find?_eq_none.2 fun k _ hk => ?_
    obtain ⟨hi, -⟩ := (s.requesting_iff inp k).1 hk
    simp [h] at hi

/-- A boundary of a standby state at which nothing is accepted (R325, R326). -/
theorem step_of_standby {s : State} (hreset : s.input.reset = none) (haccepted : s.landed.accepted s.input = none)
    (hr : s.run ≠ .running) : step s = .next (s.standby s.landed) := by
  cases hrun : s.run
  case running => exact absurd hrun hr
  case wait | stop => simp [step, State.live, hreset, haccepted, hrun]

/-- A boundary at which a source is accepted, in any run state (R321). -/
theorem step_of_accepted {s : State} {k : IntSource} (hreset : s.input.reset = none)
    (haccepted : s.landed.accepted s.input = some k) : step s = .next (s.landed.accept k) := by
  simp [step, State.live, hreset, haccepted]

/-- Settles O54: the accepted source is the first of the list that passes the test, and while I is 1 none does. -/
theorem acceptanceTest : Obligations.AcceptanceTest := by
  unfold Obligations.AcceptanceTest
  refine ⟨fun s inp k => ?first, fun s hreset hi => ?masked⟩
  case first =>
    cases hd : inp.delayed
    case true => simp [State.accepted, hd]
    case false =>
      rw [s.accepted_of_not_delayed hd, List.find?_eq_some_iff_getElem]
      simp only [true_and, Bool.not_eq_true', ← Bool.not_eq_true, State.requesting_iff]
      constructor
      · rintro ⟨hk, n, hn, hget, hbefore⟩
        refine ⟨n, List.getElem?_eq_some_iff.2 ⟨hn, hget⟩, hk, fun m hm j hj => ?_⟩
        obtain ⟨hlt, rfl⟩ := List.getElem?_eq_some_iff.1 hj
        exact hbefore m hm
      · rintro ⟨n, hget, hk, hbefore⟩
        obtain ⟨hn, hget⟩ := List.getElem?_eq_some_iff.1 hget
        exact ⟨hk, n, hn, hget, fun m hm => hbefore m hm _ (List.getElem?_eq_getElem (hm.trans hn))⟩
  case masked =>
    have hnone : s.landed.accepted s.input = none := accepted_of_flag_i (by rwa [State.landed_flag]) _
    by_cases hr : s.run = .running
    · rw [if_pos hr, step_of_running hreset hnone hr]
    · rw [if_neg hr, step_of_standby hreset hnone hr]

/-! ### A boundary of a standby state -/

theorem wakes_iff (s t : State) :
    wakes s t = true ↔
      ∃ k ∈ t.cfg.sources, s.bitAt k.request = false ∧ t.bitAt k.request = true ∧ t.isAcceptable k = false := by
  simp [wakes, and_assoc]

theorem standby_run_of_stay {s t : State} (h : t.cfg.wakeWithISet = .stay) : (s.standby t).run = t.run := by
  simp [State.standby, h]

theorem standby_run_of_resume {s t : State} (h : t.cfg.wakeWithISet = .resume) :
    (s.standby t).run = if wakes s t then .running else t.run := by
  simp [State.standby, h]

/-- Settles O58: the step is `State.standby`, whose run state is the product's choice. -/
theorem standbyStaysOrWakes : Obligations.StandbyStaysOrWakes := by
  unfold Obligations.StandbyStaysOrWakes
  intro s hreset hr haccepted
  refine ⟨_, step_of_standby hreset haccepted hr, by simp, by simp, by simp, by simp, by simp, by simp, rfl,
    fun hstay => ?_, fun hresume => ⟨fun hwake => ?_, fun hold => ?_⟩⟩
  · rw [standby_run_of_stay (by simpa using hstay), State.landed_run]
  · rw [standby_run_of_resume (by simpa using hresume), (wakes_iff s s.landed).2 (by simpa using hwake), if_pos rfl]
  · rw [standby_run_of_resume (by simpa using hresume), if_neg, State.landed_run]
    intro hwake
    obtain ⟨k, hk, hbefore, hafter, -⟩ := (wakes_iff s s.landed).1 hwake
    rw [hold k (by simpa using hk) hafter] at hbefore
    cases hbefore

/-! ### The reset -/

/-- Entries that a test on the address leaves out read as unlisted ones. -/
theorem Memory.get_filter_of_not (m : Memory) (p : Nat → Bool) (a : Nat) (ha : p a = false) :
    Memory.get (m.filter fun c => p c.1) a = unlistedByte := by
  induction m with
  | nil => rfl
  | cons c m ih =>
    obtain ⟨b, v⟩ := c
    rw [List.filter_cons]
    split
    · next hb =>
      have hne : b ≠ a := by
        rintro rfl
        simp [ha] at hb
      rw [Memory.get, if_neg hne, ih]
    · exact ih

/-- Of the bytes that are put one after the other at an address that takes them, the last stands there. -/
theorem Memory.get_foldl_set (ok : Host.Cell → Prop) [DecidablePred ok] (ram : List Host.Cell) (m : Memory) (a : Nat)
    (ha : ∀ v, ok (a, v)) :
    Memory.get (ram.foldl (fun m c => if ok c then m.set c.1 c.2 else m) m) a =
      (ram.reverse.lookup a).getD (m.get a) := by
  induction ram generalizing m with
  | nil => rfl
  | cons c ram ih =>
    obtain ⟨b, v⟩ := c
    rw [List.foldl_cons, ih, List.reverse_cons, List.lookup_append, Option.getD_or]
    congr 1
    by_cases hab : a = b
    · subst hab
      simp [ha v, Memory.get_set]
    · have hbeq : (a == b) = false := beq_false_of_ne hab
      split <;> simp [List.lookup, hbeq, hab, Memory.get_set]

/-- A byte of RAM or of a device register after a reset is the last one listed for it, and `0x00` if none is (R344). -/
theorem get_resetMemory_of_writable (p : Product) (m : Memory) (ram : List Host.Cell) (a : Addr)
    (ha : classOf p a = .ram ∨ classOf p a = .sfr) :
    (resetMemory p m ram).get a.toNat = (ram.reverse.lookup a.toNat).getD 0x00 := by
  have hclass : classOf p (BitVec.ofNat 16 a.toNat) = classOf p a := by
    rw [BitVec.ofNat_toNat, BitVec.setWidth_eq]
  have hne : classOf p a ≠ .rom ∧ classOf p a ≠ .unmapped := by
    obtain h | h := ha <;> simp [h]
  have hfilter : Memory.get (m.filter fun c => classOf p (BitVec.ofNat 16 c.1) == .rom) a.toNat = unlistedByte :=
    Memory.get_filter_of_not m (fun k => classOf p (BitVec.ofNat 16 k) == .rom) _ (by simp [hne.1])
  rw [resetMemory, Memory.get_foldl_set (fun c => c.1 < 65536 ∧ classOf p (BitVec.ofNat 16 c.1) ≠ .rom ∧
    classOf p (BitVec.ofNat 16 c.1) ≠ .unmapped), hfilter]
  · rfl
  · exact fun _ => ⟨a.isLt, hclass ▸ hne⟩

theorem flag_resetWith (s : State) (d : ResetDraw) (f : Flag) :
    (s.resetWith d).flag f = if f = .i then true else d.ps.getLsbD f.bit := by
  show (withBit d.ps Flag.i.bit true).getLsbD f.bit = _
  rw [getLsbD_withBit _ _ _ _ (by decide) (by cases f <;> decide)]
  cases f <;> rfl

/-- PC after a reset is the vector as the memory after it has it, where it can be fetched from (R342). -/
theorem toNat_resetWith_pc (s : State) (d : ResetDraw) (hlow : s.fetchable s.cfg.resetVector = true)
    (hhigh : s.fetchable (s.cfg.resetVector + 1) = true) :
    (s.resetWith d).pc.toNat =
      256 * ((s.resetWith d).peek (s.cfg.resetVector + 1)).toNat + ((s.resetWith d).peek s.cfg.resetVector).toNat := by
  have hread {a : Addr} (h : s.fetchable a = true) (dr : Draw) (t : State) (hc : t.cfg = s.cfg) (hb : t.bus = {}) :
      t.read dr a = t.peek a :=
    t.read_memory dr a (by rwa [State.fetchable, hc]) (t.seen_of_no_arrival dr a (by rw [hb]))
  exact (toNat_join _ _).trans (congrArg₂ (fun hi lo : Byte => 256 * hi.toNat + lo.toNat)
    (hread hhigh _ _ rfl rfl) (hread hlow _ _ rfl rfl))

/-- Settles O59: the step is `State.resetWith`, whatever else is due, and each class of byte has its own rule. -/
theorem resetOverridesAll : Obligations.ResetOverridesAll := by
  unfold Obligations.ResetOverridesAll
  intro s d hreset
  have hstep : step s = .next (s.popInput.resetWith d) := by simp [step, hreset]
  refine ⟨_, hstep, by simp [flag_resetWith], rfl, rfl, rfl, rfl, rfl, rfl, fun f hf => ?_, fun a ha => ?_,
    fun a ha => ?_, toNat_resetWith_pc s.popInput d⟩
  · rw [flag_resetWith, if_neg hf]
  · exact peek_resetWith_of_rom s.popInput d ha
  · exact get_resetMemory_of_writable s.cfg s.mem d.ram a ha

end Sys2Proof.Machine

/-! The instruction after one that leaves a hazard history, and from this O50 and O51. -/

namespace Sys2Proof.Machine

open Sys2Proof Sys2Proof.Config

/-! ### The step of an instruction and the history it leaves -/

/-- At a quiet boundary the step of a running CPU has a next state only by the instruction that is fetched (R94,
R321). -/
theorem step_next_of_quiet {s t : State} {i : Instr} (hq : s.Quiet) (hr : s.run = .running) (hf : s.fetch = .ok i)
    (h : step s = .next t) : ∃ u, exec i s.popInput = .next u ∧ t = s.popInput.retire i u := by
  obtain ⟨hinput, hnone⟩ := hq
  have hlanded : s.landed = s.popInput := s.landed_of_no_request (by rw [hinput])
  obtain ⟨d, hd, -⟩ | ⟨k, -, hk, -⟩ | ⟨-, -, hne, -⟩ | ⟨-, -, -, j, u, hj, -, hu, rfl⟩ := step_cases h
  · rw [hinput] at hd
    cases hd
  · rw [hlanded, hinput] at hk
    cases hnone.symm.trans hk
  · exact absurd hr hne
  · rw [hlanded] at hj hu ⊢
    obtain rfl : i = j := Except.ok.inj (hf.symm.trans hj)
    exact ⟨u, hu, rfl⟩

theorem eq_brk_of_mnemonic {i : Instr} (h : i.mnemonic = .brk) : i = .brk := by
  cases i
  case brk => rfl
  all_goals nomatch h

/-- Where no interrupt is accepted inside it, an instruction leaves its own history (R46, R350). -/
theorem prevAfter_of_no_entry {i : Instr} {s : State} (h : i = .brk → s.firstPending = none) (t : State) :
    prevAfter i s t =
      { decimalAdcSbc := (i.mnemonic == .adc || i.mnemonic == .sbc) && s.flag .d
        plp := i.mnemonic == .plp
        requestBytes := writtenRequestBytes s.cfg t.bus.writes
        raced := racedSources s t.bus.writes } := by
  have hb : breakAccepts i s = false := by
    by_cases hm : i.mnemonic = .brk
    · simp [breakAccepts, h (eq_brk_of_mnemonic hm)]
    · simp [breakAccepts, hm]
  simp [prevAfter, hb]

theorem mnemonic_ne_nop {i : Instr} (h : i ≠ .nop) : i.mnemonic ≠ .nop := by
  cases i
  case nop => exact absurd rfl h
  all_goals nofun

/-! ### The forbidden sequences -/

theorem hazard_of_plp {i : Instr} {s : State} (hp : s.prev.plp = true) (h : i ≠ .nop) :
    hazard i s = some .plpNotFollowedByNop := by
  simp [hazard, hp, mnemonic_ne_nop h]

theorem hazard_nop (s : State) : hazard .nop s = none := by
  simp [hazard, writesDecimalFlag, Instr.mnemonic]

theorem hazard_of_decimal {i : Instr} {s : State} (hp : s.prev.plp = false) (hd : s.prev.decimalAdcSbc = true)
    (h : writesDecimalFlag i = true) : hazard i s = some .decimalFlagWrite := by
  simp [hazard, hp, hd, h]

theorem hazard_of_no_history (i : Instr) {s : State} (hp : s.prev.plp = false) (hd : s.prev.decimalAdcSbc = false) :
    hazard i s = none := by
  simp [hazard, hp, hd]

/-- The second instruction of a forbidden sequence has no successor (R350). -/
theorem step_of_hazard {s : State} {i : Instr} {k : HazardKind} (hq : s.Quiet) (hr : s.run = .running)
    (hf : s.fetch = .ok i) (hz : hazard i s = some k) : step s = .refused (.hazardViolation k) := by
  have hf' : s.popInput.fetch = .ok i := hf
  have hz' : hazard i s.popInput = some k := hz
  rw [step_of_quiet hq hr, State.runInstr, hf']
  simp only [hz']

/-- An instruction of one byte that completes, transfers no control and is not forbidden leaves PC one further on. -/
theorem step_runs_one_byte {s t : State} {i : Instr} (hq : s.Quiet) (hr : s.run = .running) (hf : s.fetch = .ok i)
    (hz : hazard i s = none) (hi : exec i s.popInput = .next t) (ht : transfersControl i.mnemonic = false)
    (hl : i.length = 1) : ∃ u, step s = .next u ∧ u.pc = s.pc + 1 := by
  obtain ⟨hpc, -⟩ := exec_runsOn i s.popInput t hi ht
  rw [hl] at hpc
  refine ⟨s.popInput.retire i t, ?_, by rw [State.retire_pc, hpc]; rfl⟩
  have hrun : s.popInput.runInstr = retireResult i s.popInput (exec i s.popInput) := runInstr_of_fetch hf hz
  rw [step_of_quiet hq hr, hrun, hi]
  rfl

/-- Settles O50: PLP leaves its mark in the history, for which only NOP is let through. -/
theorem plpNeedsNop : Obligations.PlpNeedsNop := by
  unfold Obligations.PlpNeedsNop
  intro s t i hq hr hf hstep hqt hft
  obtain ⟨u, hu, rfl⟩ := step_next_of_quiet hq hr hf hstep
  have hrun : (s.popInput.retire .plp u).run = .running := by
    rw [State.retire_run, exec_run .plp _ _ hu (by decide) (by decide) (by decide), State.popInput_run, hr]
  have hplp : (s.popInput.retire .plp u).prev.plp = true := by
    rw [State.retire_prev, prevAfter_of_no_entry (i := .plp) (s := s.popInput) nofun]
    rfl
  constructor
  · exact fun hi => step_of_hazard hqt hrun hft (hazard_of_plp hplp hi)
  · rintro rfl
    exact step_runs_one_byte hqt hrun hft (hazard_nop _) rfl rfl rfl

/-- Settles O51: ADC and SBC leave their D in the history, for which SEC, CLC and CLD are forbidden or let through. -/
theorem decimalFlagHazard : Obligations.DecimalFlagHazard := by
  unfold Obligations.DecimalFlagHazard
  intro s t i j hq hr hf hi hstep hqt hft hj
  obtain ⟨u, hu, rfl⟩ := step_next_of_quiet hq hr hf hstep
  have hne (k : Instr) (ha : k.mnemonic ≠ .adc) (hb : k.mnemonic ≠ .sbc) : i ≠ k := by
    rintro rfl
    exact hi.elim ha hb
  have hprev : (s.popInput.retire i u).prev.plp = false ∧ (s.popInput.retire i u).prev.decimalAdcSbc = s.flag .d := by
    rw [State.retire_prev, prevAfter_of_no_entry (s := s.popInput) fun e => absurd e (hne _ nofun nofun)]
    obtain h | h := hi <;> simp [h]
  obtain ⟨hplp, hdecimal⟩ := hprev
  have hrun : (s.popInput.retire i u).run = .running := by
    rw [State.retire_run, exec_run i _ _ hu (hne _ nofun nofun) (hne _ nofun nofun) (hne _ nofun nofun),
      State.popInput_run, hr]
  constructor
  · intro hd
    refine step_of_hazard hqt hrun hft (hazard_of_decimal hplp (hdecimal.trans hd) ?_)
    obtain rfl | rfl | rfl := hj <;> rfl
  · intro hd
    have hz := hazard_of_no_history j hplp (hdecimal.trans hd)
    obtain rfl | rfl | rfl := hj <;> exact step_runs_one_byte hqt hrun hft hz rfl rfl rfl

end Sys2Proof.Machine

/-! The entry for an accepted source and BRK with a source pending: what the stores of a saved context leave alone, what
clearing a request bit and landing the requests leave alone, and from these O47, O56 and O57. -/

namespace Sys2Proof.Machine

open Sys2Proof Sys2Proof.Config

/-! ### What one control bit leaves of the others -/

/-- A read depends on the byte at its address, the product, the bus and the number of the step. -/
theorem State.read_congr_at {s t : State} {a : Addr} (hp : s.peek a = t.peek a) (hc : s.cfg = t.cfg)
    (hb : s.bus = t.bus) (hd : s.draws = t.draws) (d : Draw) : s.read d a = t.read d a := by
  simp [State.read, State.seen, hp, hc, hb, hd]

theorem State.peek_setBitAt_of_ne (s : State) {l : BitLoc} {a : Addr} (b : Bool) (h : l.addr ≠ a) :
    (s.setBitAt l b).peek a = s.peek a := by
  rw [State.setBitAt, State.peek_put, if_neg fun k => h k.1.symm]

/-- A bit of memory is its address and its number. -/
theorem bitLoc_ext {l m : BitLoc} (ha : l.addr = m.addr) (hb : (l.bit : Nat) = m.bit) : l = m := by
  cases l
  cases m
  exact (Config.BitLoc.mk.injEq ..).mpr ⟨ha, Fin.ext hb⟩

/-- A control bit keeps its value when the hardware writes another one. -/
theorem State.bitAt_setBitAt_of_ne (s : State) {l m : BitLoc} (b : Bool) (h : m ≠ l) :
    (s.setBitAt l b).bitAt m = s.bitAt m := by
  unfold State.bitAt
  by_cases ha : m.addr = l.addr
  · rw [State.setBitAt, State.peek_put, ha]
    split
    · rw [getLsbD_withBit _ _ _ _ l.bit.isLt m.bit.isLt, if_neg fun hb => h (bitLoc_ext ha hb.symm)]
    · rfl
  · rw [s.peek_setBitAt_of_ne b (Ne.symm ha)]

/-- The stack page depends on the product and, where it has a selection bit, on that bit (R41). -/
theorem State.stackPage_congr_bit {s t : State} (hc : t.cfg = s.cfg)
    (h : ∀ l, s.cfg.stackPage = .selectionBit l → t.bitAt l = s.bitAt l) : t.stackPage = s.stackPage := by
  unfold State.stackPage
  rw [hc]
  split
  · rfl
  · next l hl => rw [h l hl]

theorem State.stackPage_setBitAt (s : State) {l : BitLoc} (b : Bool) (h : s.cfg.stackPage ≠ .selectionBit l) :
    (s.setBitAt l b).stackPage = s.stackPage :=
  State.stackPage_congr_bit (State.setBitAt_cfg s l b) fun _ hm =>
    s.bitAt_setBitAt_of_ne b fun e => h (e ▸ hm)

/-- The requests that land leave every bit that is no request bit. -/
theorem State.bitAt_settle_of_no_request (s : State) {l : BitLoc} (h : ∀ k ∈ s.cfg.sources, k.request ≠ l) :
    s.settle.bitAt l = s.bitAt l := by
  have hnone : (s.bus.arrivals.any fun r => raisesBit s.cfg l.addr l.bit r.source) = false := by
    refine List.any_eq_false.2 fun r _ hr => ?_
    obtain ⟨k, hk, haddr, hbit, -⟩ := (raisesBit_iff _ _ _ _).1 hr
    exact h k (List.mem_of_getElem? hk) (bitLoc_ext haddr hbit)
  rw [State.bitAt, s.getLsbD_peek_settle _ _ l.bit.isLt, hnone, Bool.or_false, State.bitAt]

/-! ### What the stores of a saved context leave alone -/

theorem request_mem_controlBits {p : Product} {k : IntSource} (h : k ∈ p.sources) : k.request ∈ controlBits p :=
  List.mem_append_left _ (List.mem_flatMap.2 ⟨k, h, by simp⟩)

theorem State.StackSafe.congr {s t : State} {n : Nat} (h : s.StackSafe n) (hc : t.cfg = s.cfg)
    (hp : t.stackPage = s.stackPage) (hs : t.sp = s.sp) : t.StackSafe n := by
  unfold State.StackSafe State.stackAddr
  rw [hc, hp, hs]
  exact h

/-- On a safe stack the pushes go to the addresses from `S` downwards, all in one page. -/
theorem State.mem_pushAddrs {vs : List Byte} {s : State} {a : Addr} (h : s.StackSafe vs.length)
    (ha : a ∈ pushAddrs s vs) : ∃ k < vs.length, a = s.stackAddr (s.sp - BitVec.ofNat 8 k) := by
  induction vs generalizing s with
  | nil => cases ha
  | cons v vs ih =>
    obtain rfl | ha := List.mem_cons.1 ha
    · exact ⟨0, Nat.succ_pos _, by rw [BitVec.sub_zero]⟩
    · obtain ⟨-, hcontrol⟩ := h 0 (Nat.succ_pos _)
      have hpage : (s.push v).stackPage = s.stackPage :=
        State.stackPage_write v fun l hl => by simpa using hcontrol l hl
      have hdown (k : Nat) : (s.push v).sp - BitVec.ofNat 8 k = s.sp - BitVec.ofNat 8 (k + 1) := by
        rw [State.push_sp]
        bv_omega
      have hsafe : (s.push v).StackSafe vs.length := by
        intro k hk
        rw [State.push_cfg, State.stackAddr, hpage, hdown]
        exact h (k + 1) (Nat.succ_lt_succ hk)
      obtain ⟨k, hk, rfl⟩ := ih hsafe ha
      exact ⟨k + 1, Nat.succ_lt_succ hk, by rw [State.stackAddr, hpage, hdown, State.stackAddr]⟩

theorem State.mem_contextAddrs {s : State} {a : Addr} (h : s.StackSafe 3) {brk : Bool} {ret : Addr}
    (ha : a ∈ contextAddrs s brk ret) : ∃ k < 3, a = s.stackAddr (s.sp - BitVec.ofNat 8 k) :=
  State.mem_pushAddrs (s := s.setFlag .b brk) (vs := [_, _, _]) h ha

/-- Saving the context on a safe stack leaves the bytes that hold a bit of the CPU. -/
theorem State.peek_takeException_of_control {s : State} {l : BitLoc} (h : s.StackSafe 3) (hl : l ∈ controlBits s.cfg)
    (brk : Bool) (ret v : Addr) (lo hi : Draw) : (s.takeException brk ret v lo hi).peek l.addr = s.peek l.addr := by
  refine (keepsAt_takeException brk ret v lo hi (spared_of_not_mem _ fun ha => ?_)).1
  obtain ⟨k, hk, e⟩ := State.mem_contextAddrs h ha
  obtain ⟨-, hcontrol⟩ := h k hk
  exact hcontrol l hl e

theorem State.bitAt_takeException {s : State} {l : BitLoc} (h : s.StackSafe 3) (hl : l ∈ controlBits s.cfg)
    (brk : Bool) (ret v : Addr) (lo hi : Draw) : (s.takeException brk ret v lo hi).bitAt l = s.bitAt l := by
  rw [State.bitAt, State.peek_takeException_of_control h hl, State.bitAt]

theorem State.stackPage_takeException {s : State} (h : s.StackSafe 3) (brk : Bool) (ret v : Addr) (lo hi : Draw) :
    (s.takeException brk ret v lo hi).stackPage = s.stackPage :=
  State.stackPage_congr_bit (State.takeException_cfg ..) fun l hl =>
    State.bitAt_takeException h (by simp [controlBits, hl]) brk ret v lo hi

/-- A write to a byte that holds no request bit leaves the requests that are to come (R76). -/
theorem State.write_arrivals_of_no_request (s : State) {a : Addr} (v : Byte)
    (h : ∀ k ∈ s.cfg.sources, k.request.addr ≠ a) : (s.write a v).bus.arrivals = s.bus.arrivals := by
  rw [State.write_bus]
  split
  · refine List.filter_eq_self.2 fun r _ => ?_
    have hnot : arrivesAt s.cfg a r = false :=
      (arrivesAt_eq_false_iff _ _ _).2 fun k hk => h k (List.mem_of_getElem? hk)
    simp [hnot]
  · rfl

/-- Pushes on a safe stack leave the requests that are to come. -/
theorem State.foldl_push_arrivals {vs : List Byte} {s : State} (h : s.StackSafe vs.length) :
    (vs.foldl State.push s).bus.arrivals = s.bus.arrivals := by
  induction vs using List.reverseRecOn with
  | nil => rfl
  | append_singleton vs v ih =>
    rw [List.length_append, List.length_singleton] at h
    have hsafe := h.mono (Nat.le_succ _)
    obtain ⟨-, hcontrol⟩ := h vs.length (Nat.lt_succ_self _)
    rw [List.foldl_append, List.foldl_cons, List.foldl_nil, State.push_bus,
      State.write_arrivals_of_no_request, ih hsafe]
    rw [State.foldl_push_cfg, State.foldl_push_sp, State.foldl_push_stackAddr hsafe]
    exact fun k hk => hcontrol _ (request_mem_controlBits hk)

theorem State.takeException_arrivals {s : State} (h : s.StackSafe 3) (brk : Bool) (ret v : Addr) (lo hi : Draw) :
    (s.takeException brk ret v lo hi).bus.arrivals = s.bus.arrivals := by
  rw [State.takeException_eq, State.saveContext_eq_foldl]
  exact State.foldl_push_arrivals (s := s.setFlag .b brk) (vs := [_, _, _]) h

/-! ### A saved context -/

/-- A saved context stays saved while `S`, the flags and, on a safe stack, its three bytes are kept. -/
theorem State.SavedContext.congr {s t u : State} {ret : Addr} {brk : Bool} (h : s.SavedContext t ret brk)
    (hs : u.sp = t.sp) (hf : ∀ f, u.flag f = t.flag f)
    (hp : s.StackSafe 3 → ∀ j < 3, u.peek (s.stackAddr (s.sp - BitVec.ofNat 8 j)) =
      t.peek (s.stackAddr (s.sp - BitVec.ofNat 8 j))) : s.SavedContext u ret brk := by
  obtain ⟨hsp, hi, hb, hflags, hstack⟩ := h
  refine ⟨hs.trans hsp, (hf _).trans hi, (hf _).trans hb, fun f hn => (hf f).trans (hflags f hn), fun hsafe => ?_⟩
  have h0 : u.peek (s.stackAddr s.sp) = t.peek (s.stackAddr s.sp) := by simpa using hp hsafe 0 (by decide)
  have h1 : u.peek (s.stackAddr (s.sp - 1)) = t.peek (s.stackAddr (s.sp - 1)) := hp hsafe 1 (by decide)
  have h2 : u.peek (s.stackAddr (s.sp - 2)) = t.peek (s.stackAddr (s.sp - 2)) := hp hsafe 2 (by decide)
  rw [h0, h1, h2]
  exact hstack hsafe

/-- The context that is saved is that of any state with the same flags, `S`, product and stack page. -/
theorem State.SavedContext.congr_left {s r t : State} {ret : Addr} {brk : Bool} (h : r.SavedContext t ret brk)
    (hs : r.sp = s.sp) (hf : ∀ f, r.flag f = s.flag f) (hc : r.cfg = s.cfg) (hp : r.stackPage = s.stackPage) :
    s.SavedContext t ret brk := by
  have haddr (z : Byte) : r.stackAddr z = s.stackAddr z := by rw [State.stackAddr, hp, State.stackAddr]
  obtain ⟨hsp, hi, hb, hflags, hstack⟩ := h
  refine ⟨hs ▸ hsp, hi, hb, fun f hn => (hflags f hn).trans (hf f), fun hsafe => ?_⟩
  have hsafe' := hstack (hsafe.congr hc hp hs)
  simp only [haddr, hs, hf] at hsafe'
  exact hsafe'

/-- RTI from a state that has saved a context, in the same page of the stack, goes back to it (R266, R313). -/
theorem State.returnFromException_of_savedContext {s t : State} {ret : Addr} {brk : Bool} (h : s.SavedContext t ret brk)
    (hsafe : s.StackSafe 3) (hc : t.cfg = s.cfg) (hp : t.stackPage = s.stackPage) :
    t.returnFromException.pc = ret ∧ t.returnFromException.sp = s.sp ∧
      ∀ f, t.returnFromException.flag f = if f = .b then brk else s.flag f := by
  obtain ⟨hsp, -, -, -, hstack⟩ := h
  obtain ⟨hhigh, hlow, hps⟩ := hstack hsafe
  have hread (z : Byte) (k : Nat) (hk : k < 3) (hz : z = s.sp - BitVec.ofNat 8 k) (d : Draw) :
      t.read d (t.stackAddr z) = t.peek (s.stackAddr z) := by
    subst hz
    rw [State.stackAddr, hp]
    refine State.read_of_plain ?_ d
    rw [State.Plain, State.fetchable, hc]
    exact hsafe.plain hk
  have hsp₁ : t.sp + 1 = s.sp - 2 := by
    rw [hsp]
    bv_omega
  have hsp₂ : t.sp + 1 + 1 = s.sp - 1 := by
    rw [hsp]
    bv_omega
  have hsp₃ : t.sp + 1 + 1 + 1 = s.sp := by
    rw [hsp]
    bv_omega
  rw [State.returnFromException_eq, hsp₃, hsp₂, hsp₁, hread (s.sp - 2) 2 (by decide) rfl,
    hread (s.sp - 1) 1 (by decide) rfl, hread s.sp 0 (by decide) (BitVec.sub_zero s.sp).symm]
  refine ⟨BitVec.eq_of_toNat_eq ?_, rfl, hps⟩
  rw [toNat_join, hhigh, hlow]
  omega

/-! ### The entry for a source -/

@[simp] theorem State.returnFromException_run (s : State) : s.returnFromException.run = s.run := rfl

@[simp] theorem State.enterInterrupt_cfg (s : State) (k : IntSource) : (s.enterInterrupt k).cfg = s.cfg := by
  obtain ⟨-, hcfg, -⟩ := sameHidden_enterInterrupt s k
  exact hcfg

/-- The state between the clearing of the request bit and the saving of the context has the stack of before. -/
theorem State.StackSafe.setBitAt {s : State} {l : BitLoc} (h : s.StackSafe 3) (b : Bool)
    (hl : s.cfg.stackPage ≠ .selectionBit l) : (s.setBitAt l b).StackSafe 3 :=
  h.congr (State.setBitAt_cfg ..) (s.stackPage_setBitAt b hl) (State.setBitAt_sp ..)

/-- The entry saves the context of the state before it, the clearing of the request bit notwithstanding (R306). -/
theorem State.savedContext_enterInterrupt {s : State} {k : IntSource} (h : s.cfg.stackPage ≠ .selectionBit k.request) :
    s.SavedContext (s.enterInterrupt k) s.pc false := by
  have hsaved := (s.setBitAt k.request false).savedContext_takeException false s.pc k.vector .irqVectorLo .irqVectorHi
  exact hsaved.congr_left (State.setBitAt_sp ..) (s.setBitAt_flag _ _) (State.setBitAt_cfg ..)
    (s.stackPage_setBitAt false h)

/-- PC is the vector as the memory after the pushes has it (R307). -/
theorem State.toNat_enterInterrupt_pc (s : State) (k : IntSource) :
    (s.enterInterrupt k).pc.toNat =
      256 * ((s.enterInterrupt k).read .irqVectorHi (k.vector + 1)).toNat +
        ((s.enterInterrupt k).read .irqVectorLo k.vector).toNat :=
  (s.setBitAt k.request false).toNat_takeException_pc false s.pc k.vector .irqVectorLo .irqVectorHi

/-- On a safe stack the entry leaves the request bit cleared (R306). -/
theorem State.bitAt_enterInterrupt {s : State} {k : IntSource} (h : s.StackSafe 3) (hk : k ∈ s.cfg.sources)
    (hp : s.cfg.stackPage ≠ .selectionBit k.request) (hw : writable s.cfg k.request.addr = true) :
    (s.enterInterrupt k).bitAt k.request = false := by
  have hkeep := State.bitAt_takeException (h.setBitAt false hp) (l := k.request)
    (by rw [State.setBitAt_cfg]; exact request_mem_controlBits hk) false s.pc k.vector .irqVectorLo .irqVectorHi
  exact hkeep.trans (s.bitAt_setBitAt k.request false hw)

theorem State.stackPage_enterInterrupt {s : State} {k : IntSource} (h : s.StackSafe 3)
    (hp : s.cfg.stackPage ≠ .selectionBit k.request) : (s.enterInterrupt k).stackPage = s.stackPage :=
  (State.stackPage_takeException (h.setBitAt false hp) false s.pc k.vector .irqVectorLo .irqVectorHi).trans
    (s.stackPage_setBitAt false hp)

theorem State.enterInterrupt_arrivals {s : State} {k : IntSource} (h : s.StackSafe 3)
    (hp : s.cfg.stackPage ≠ .selectionBit k.request) : (s.enterInterrupt k).bus.arrivals = s.bus.arrivals :=
  (State.takeException_arrivals (h.setBitAt false hp) false s.pc k.vector .irqVectorLo .irqVectorHi).trans
    (congrArg Bus.arrivals (State.setBitAt_bus ..))

/-! ### The step that accepts a source -/

theorem State.accept_sp (s : State) (k : IntSource) : (s.accept k).sp = (s.enterInterrupt k).sp := by
  rw [State.accept_eq]
  simp

theorem State.accept_pc (s : State) (k : IntSource) : (s.accept k).pc = (s.enterInterrupt k).pc := by
  rw [State.accept_eq]
  simp

theorem State.accept_flag (s : State) (k : IntSource) (f : Flag) :
    (s.accept k).flag f = (s.enterInterrupt k).flag f := by
  rw [State.accept_eq]
  exact State.settle_flag (s.enterInterrupt k) f

/-- The requests that land after the entry reach no byte of a safe stack. -/
theorem State.savedContext_accept {s : State} {k : IntSource} (h : s.cfg.stackPage ≠ .selectionBit k.request) :
    s.SavedContext (s.accept k) s.pc false := by
  refine (State.savedContext_enterInterrupt h).congr (s.accept_sp k) (s.accept_flag k) fun hsafe j hj => ?_
  obtain ⟨-, hcontrol⟩ := hsafe j hj
  rw [State.accept_peek, State.peek_settle_of]
  rw [State.enterInterrupt_cfg]
  exact .inr fun m hm => hcontrol _ (request_mem_controlBits hm)

/-- After the entry the request bit is that of the requests which arrived inside it (R76, R306). -/
theorem State.bitAt_accept_iff {s : State} {k : IntSource} (h : s.StackSafe 3) (hk : k ∈ s.cfg.sources)
    (hp : s.cfg.stackPage ≠ .selectionBit k.request) (hw : writable s.cfg k.request.addr = true) :
    (s.accept k).bitAt k.request = true ↔
      ∃ r ∈ s.bus.arrivals, ∃ j, s.cfg.sources[r.source]? = some j ∧ j.request = k.request := by
  have hcleared : ((s.enterInterrupt k).peek k.request.addr).getLsbD k.request.bit = false :=
    State.bitAt_enterInterrupt h hk hp hw
  rw [State.bitAt, State.accept_peek, State.getLsbD_peek_settle _ _ _ k.request.bit.isLt, hcleared, Bool.false_or,
    State.enterInterrupt_arrivals h hp, State.enterInterrupt_cfg, List.any_eq_true]
  refine exists_congr fun r => and_congr_right fun _ => ?_
  rw [raisesBit_iff]
  refine exists_congr fun j => and_congr_right fun _ => ⟨fun ⟨haddr, hbit, _⟩ => bitLoc_ext haddr hbit,
    fun e => by simp [e, hw]⟩

/-- Where the vector is in memory that no device writes, PC is the vector as it stands after the entry (R307, R325). -/
theorem State.toNat_accept_pc {s : State} {k : IntSource} (hlow : s.Plain k.vector) (hhigh : s.Plain (k.vector + 1)) :
    (s.accept k).pc.toNat =
      256 * ((s.accept k).peek (k.vector + 1)).toNat + ((s.accept k).peek k.vector).toNat := by
  have hread {a : Addr} (h : s.Plain a) (d : Draw) : (s.enterInterrupt k).read d a = (s.accept k).peek a := by
    have hplain : (s.enterInterrupt k).Plain a := by
      rwa [State.Plain, State.fetchable, State.enterInterrupt_cfg]
    rw [State.read_of_plain hplain, State.accept_peek, State.peek_settle_of]
    obtain ⟨-, hcontrol⟩ := hplain
    exact .inr fun m hm => hcontrol _ (request_mem_controlBits hm)
  rw [State.accept_pc, State.toNat_enterInterrupt_pc, hread hhigh, hread hlow]

theorem mem_sources_of_accepted {s : State} {inp : Input} {k : IntSource} (h : s.accepted inp = some k) :
    k ∈ s.cfg.sources := by
  unfold State.accepted at h
  split at h
  · cases h
  · exact List.mem_of_find?_eq_some h

/-- Settles O56: the step is `State.accept`, the entry followed by the landing of the requests. -/
theorem interruptEntry : Obligations.InterruptEntry := by
  unfold Obligations.InterruptEntry
  intro s k hreset haccepted hp
  have hk : k ∈ s.landed.cfg.sources := mem_sources_of_accepted haccepted
  have hp' : s.landed.cfg.stackPage ≠ .selectionBit k.request := by rwa [State.landed_cfg]
  refine ⟨_, step_of_accepted hreset haccepted, State.savedContext_accept hp', by simp, by simp, by simp, by simp,
    by simp, fun hw hsafe => ?_, fun hlow hhigh => ?_⟩
  · simpa using State.bitAt_accept_iff hsafe hk hp' (by rwa [State.landed_cfg])
  · refine State.toNat_accept_pc ?_ ?_
    all_goals rwa [State.Plain, State.fetchable, State.landed_cfg]

/-- Settles O57: the stack page is the one of before the entry, so that RTI finds the saved context. -/
theorem entryThenRtiResumes : Obligations.EntryThenRtiResumes := by
  unfold Obligations.EntryThenRtiResumes
  intro s k hreset haccepted hp hsafe
  have hk : k ∈ s.landed.cfg.sources := mem_sources_of_accepted haccepted
  have hp' (j : IntSource) (hj : j ∈ s.landed.cfg.sources) : s.landed.cfg.stackPage ≠ .selectionBit j.request := by
    rw [State.landed_cfg] at hj ⊢
    exact hp j hj
  have hpage : (s.landed.accept k).stackPage = s.landed.stackPage := by
    rw [State.stackPage_congr (State.accept_mem ..) (by simp), ← State.stackPage_enterInterrupt hsafe (hp' k hk)]
    refine State.stackPage_congr_bit (State.settle_cfg _) fun l hl => State.bitAt_settle_of_no_request _ ?_
    rw [State.enterInterrupt_cfg] at hl ⊢
    exact fun j hj e => hp' j hj (e ▸ hl)
  obtain ⟨hpc, hsp, hflags⟩ := State.returnFromException_of_savedContext (State.savedContext_accept (hp' k hk)) hsafe
    (State.accept_cfg ..) hpage
  refine ⟨_, (s.landed.accept k).returnFromException, step_of_accepted hreset haccepted, rfl,
    by rw [hpc, State.landed_pc], by rw [hsp, State.landed_sp], by simp, by simp, by simp,
    (hflags .b).trans (if_pos rfl), fun f hf => ?_, by simp⟩
  rw [hflags f, if_neg (by simpa using hf), State.landed_flag]

/-! ### BRK with a source pending -/

/-- With a source pending BRK does what the product has chosen (R319). -/
theorem exec_brk_of_pending {s : State} {k : IntSource} (h : s.firstPending = some k) :
    exec .brk s = .next (s.takeBreakPending k) := by
  show execBrk s = _
  rw [execBrk, h]

theorem State.savedContext_takeBreak (s : State) : s.SavedContext s.takeBreak (s.pc + 2) true :=
  s.savedContext_takeException true (s.pc + 2) s.cfg.brkVector .brkVectorLo .brkVectorHi

theorem State.toNat_takeBreak_pc (s : State) :
    s.takeBreak.pc.toNat =
      256 * (s.takeBreak.read .brkVectorHi (s.cfg.brkVector + 1)).toNat +
        (s.takeBreak.read .brkVectorLo s.cfg.brkVector).toNat :=
  s.toNat_takeException_pc true (s.pc + 2) s.cfg.brkVector .brkVectorLo .brkVectorHi

@[simp] theorem State.takeBreak_cfg (s : State) : s.takeBreak.cfg = s.cfg := State.takeException_cfg ..

/-- Clearing a request bit leaves a context that stands on a safe stack. -/
theorem State.SavedContext.setBitAt {s t : State} {ret : Addr} {brk : Bool} (h : s.SavedContext t ret brk)
    {l : BitLoc} (hl : l ∈ controlBits s.cfg) (b : Bool) : s.SavedContext (t.setBitAt l b) ret brk :=
  h.congr (State.setBitAt_sp ..) (t.setBitAt_flag l b) fun hsafe j hj =>
    t.peek_setBitAt_of_ne b ((hsafe j hj).2 l hl)

/-- Clearing a request bit leaves the vector that PC was loaded from, unless they share a byte. -/
theorem State.read_setBitAt_of_ne (s : State) {l : BitLoc} {a : Addr} (b : Bool) (h : l.addr ≠ a) (d : Draw) :
    (s.setBitAt l b).read d a = s.read d a :=
  State.read_congr_at (s.peek_setBitAt_of_ne b h) (State.setBitAt_cfg ..) (State.setBitAt_bus ..)
    (State.setBitAt_draws ..) d

/-- The entry that follows a break has its context below the break's, so that both stand at the end (R319). -/
theorem State.peek_enterInterrupt_takeBreak {s : State} {k : IntSource} (hs : s.StackSafe 3)
    (hu : s.takeBreak.StackSafe 3) (hk : k ∈ s.cfg.sources) (hp : s.cfg.stackPage ≠ .selectionBit k.request) {j : Nat}
    (hj : j < 3) :
    (s.takeBreak.enterInterrupt k).peek (s.stackAddr (s.sp - BitVec.ofNat 8 j)) =
      s.takeBreak.peek (s.stackAddr (s.sp - BitVec.ofNat 8 j)) := by
  have hpu : s.takeBreak.cfg.stackPage ≠ .selectionBit k.request := by rwa [State.takeBreak_cfg]
  have hpage : (s.takeBreak.setBitAt k.request false).stackPage = s.stackPage :=
    (s.takeBreak.stackPage_setBitAt false hpu).trans (State.stackPage_takeException hs ..)
  obtain ⟨-, hcontrol⟩ := hs j hj
  refine (keepsAt_enterInterrupt k (spared_of_not_mem _ fun ha => ?_)).1
  obtain e | ha := List.mem_cons.1 ha
  · exact hcontrol _ (request_mem_controlBits hk) e.symm
  · obtain ⟨m, hm, e⟩ := State.mem_contextAddrs (hu.setBitAt false hpu) ha
    obtain ⟨hsp, -⟩ := s.savedContext_takeBreak
    rw [State.stackAddr, State.stackAddr, hpage, State.setBitAt_sp, hsp] at e
    obtain ⟨-, hlow⟩ := (join_inj _ _ _ _).1 e
    bv_omega

/-- Settles O47, behaviour by behaviour: the break alone, the context of the break with the vector of the source, or the
entry for the source from the state that the break leaves. -/
theorem brkWithPending : Obligations.BrkWithPending := by
  unfold Obligations.BrkWithPending
  intro s k hpending
  have hk : k ∈ s.cfg.sources := List.mem_of_find?_eq_some hpending
  have hcontrol : k.request ∈ controlBits s.cfg := request_mem_controlBits hk
  have hexec := exec_brk_of_pending hpending
  unfold State.takeBreakPending at hexec
  refine ⟨fun hstay => ?stay, fun hvector => ?vector, fun hafter hp u hu => ?after⟩
  case stay =>
    rw [hstay] at hexec
    refine ⟨_, hexec, s.savedContext_takeBreak, s.toNat_takeBreak_pc, fun hsafe => ?_⟩
    have hbit : s.bitAt k.request = true := by
      have hboth : s.isPending k = true := List.find?_some hpending
      obtain ⟨hrequest, -⟩ := Bool.and_eq_true_iff.1 hboth
      exact hrequest
    exact (State.bitAt_takeException hsafe hcontrol ..).trans hbit
  case vector =>
    rw [hvector] at hexec
    refine ⟨_, hexec, (s.savedContext_takeException ..).setBitAt hcontrol false, fun hlow hhigh => ?_, fun hw => ?_⟩
    · rw [State.setBitAt_pc, State.read_setBitAt_of_ne _ _ hlow, State.read_setBitAt_of_ne _ _ hhigh]
      exact s.toNat_takeException_pc ..
    · exact State.bitAt_setBitAt _ _ _ (by rwa [State.takeException_cfg])
  case after =>
    subst hu
    rw [hafter] at hexec
    have hpu : s.takeBreak.cfg.stackPage ≠ .selectionBit k.request := by rwa [State.takeBreak_cfg]
    refine ⟨_, hexec, s.savedContext_takeBreak, s.toNat_takeBreak_pc, State.savedContext_enterInterrupt hpu, rfl,
      State.toNat_enterInterrupt_pc _ k, fun hs hu j hj a ha => ?_, fun hw hu => ?_⟩
    · rw [ha]
      exact State.peek_enterInterrupt_takeBreak hs hu hk hp hj
    · exact State.bitAt_enterInterrupt hu (by rwa [State.takeBreak_cfg]) hpu (by rwa [State.takeBreak_cfg])

end Sys2Proof.Machine

/-! The writes of an instruction as they stand on the bus at its end, the history that is taken from them, and from
these O42 and O55. -/

namespace Sys2Proof.Machine

open Sys2Proof Sys2Proof.Config

/-! ### The notes of the writes -/

/-- On the bus of `t` stand the writes that took `s` to `t`: one for each of the addresses `as` that a write reaches, at
most one for each byte of memory, with the byte of `s` and the byte of `t` there; and nothing was to arrive. -/
structure NotesWrites (as : List Addr) (s t : State) : Prop where
  arrivals : t.bus.arrivals = []
  bytes : ∀ w ∈ t.bus.writes, w.old = s.peek w.addr ∧ w.new = t.peek w.addr
  noted : ∀ a ∈ as, writable s.cfg a = true → ∃ w ∈ t.bus.writes, w.addr = a
  kept : ∀ a, (∀ w ∈ t.bus.writes, w.addr ≠ a) → t.peek a = s.peek a

theorem notesWrites_nil {s : State} (h : s.bus = {}) : NotesWrites [] s s where
  arrivals := by rw [h]
  bytes := by simp [h]
  noted := nofun
  kept _ _ := rfl

theorem NotesWrites.congr {as : List Addr} {s t u : State} (h : NotesWrites as s t) (hm : SameMemory t u) :
    NotesWrites as s u := by
  obtain ⟨hmem, hbus⟩ := hm
  have hpeek (a : Addr) : u.peek a = t.peek a := by rw [State.peek, hmem, State.peek]
  obtain ⟨harrivals, hbytes, hnoted, hkept⟩ := h
  exact ⟨by rwa [hbus], by simpa [hbus, hpeek] using hbytes, by simpa [hbus] using hnoted,
    by simpa [hbus, hpeek] using hkept⟩

/-- A write that reaches its byte is noted with the byte it replaces, where nothing is to arrive (R75). -/
theorem State.write_bus_of_no_arrival {s : State} {a : Addr} (v : Byte) (hw : writable s.cfg a = true)
    (h : s.bus.arrivals = []) :
    (s.write a v).bus = { arrivals := [], writes := { addr := a, old := s.peek a, new := v } :: s.bus.writes } := by
  simp [State.write_bus, hw, State.busAfter, h, arrivalMask]

/-- One more write, to a byte that none of those before it has reached. -/
theorem NotesWrites.write {as : List Addr} {s t : State} (h : NotesWrites as s t) (hc : t.cfg = s.cfg) {a : Addr}
    (ha : ∀ w ∈ t.bus.writes, w.addr ≠ a) (v : Byte) : NotesWrites (as ++ [a]) s (t.write a v) := by
  obtain ⟨harrivals, hbytes, hnoted, hkept⟩ := h
  cases hw : writable t.cfg a with
  | false =>
    have hpeek (b : Addr) : (t.write a v).peek b = t.peek b := by simp [State.peek_write, hw]
    have hbus : (t.write a v).bus = t.bus := by simp [State.write_bus, hw]
    refine ⟨by rwa [hbus], by simpa [hbus, hpeek] using hbytes, fun b hb hwb => ?_, by simpa [hbus, hpeek] using hkept⟩
    rw [hbus]
    obtain hb | hb := List.mem_append.1 hb
    · exact hnoted b hb hwb
    · obtain rfl := List.mem_singleton.1 hb
      simp [← hc, hw] at hwb
  | true =>
    have hbus := State.write_bus_of_no_arrival v hw harrivals
    have hsame : (t.write a v).peek a = v := by rw [State.peek_write, if_pos ⟨rfl, hw⟩]
    constructor
    case arrivals => rw [hbus]
    case bytes =>
      rw [hbus]
      intro w hmem
      obtain rfl | hmem := List.mem_cons.1 hmem
      · exact ⟨hkept a ha, hsame.symm⟩
      · rw [State.peek_write_of_ne t v (ha w hmem)]
        exact hbytes w hmem
    case noted =>
      rw [hbus]
      intro b hb hwb
      obtain hb | hb := List.mem_append.1 hb
      · obtain ⟨w, hmem, e⟩ := hnoted b hb hwb
        exact ⟨w, List.mem_cons_of_mem _ hmem, e⟩
      · exact ⟨_, List.mem_cons_self, (List.mem_singleton.1 hb).symm⟩
    case kept =>
      rw [hbus]
      intro b hb
      obtain ⟨hne, hold⟩ := List.forall_mem_cons.1 hb
      rw [State.peek_write_of_ne t v hne.symm]
      exact hkept b hold

/-! ### The notes of pushes -/

theorem State.addr_of_mem_writes_write {s : State} {a : Addr} {v : Byte} {w : BusWrite}
    (h : w ∈ (s.write a v).bus.writes) : w.addr = a ∨ w ∈ s.bus.writes := by
  rw [State.write_bus] at h
  split at h
  · obtain rfl | h := List.mem_cons.1 h
    · exact .inl rfl
    · exact .inr h
  · exact .inr h

/-- The pushes of a list go to low bytes that fall from `S`, whichever the page is at each of them. -/
theorem loByte_of_mem_writes_foldl_push {vs : List Byte} {s : State} (hs : s.bus = {}) {w : BusWrite}
    (h : w ∈ (vs.foldl State.push s).bus.writes) : ∃ k < vs.length, loByte w.addr = s.sp - BitVec.ofNat 8 k := by
  induction vs using List.reverseRecOn with
  | nil =>
    rw [List.foldl_nil, hs] at h
    cases h
  | append_singleton vs v ih =>
    rw [List.foldl_append, List.foldl_cons, List.foldl_nil, State.push_bus] at h
    rw [List.length_append, List.length_singleton]
    obtain e | h := State.addr_of_mem_writes_write h
    · exact ⟨vs.length, Nat.lt_succ_self _, by rw [e, State.stackAddr, loByte_join, State.foldl_push_sp]⟩
    · obtain ⟨k, hk, e⟩ := ih h
      exact ⟨k, Nat.lt_succ_of_lt hk, e⟩

theorem pushAddrs_append_singleton (vs : List Byte) (v : Byte) (s : State) :
    pushAddrs s (vs ++ [v]) =
      pushAddrs s vs ++ [(vs.foldl State.push s).stackAddr (vs.foldl State.push s).sp] := by
  induction vs generalizing s with
  | nil => rfl
  | cons u vs ih => rw [List.cons_append, pushAddrs, ih, pushAddrs, List.cons_append, List.foldl_cons]

/-- No two of up to 256 pushes go to one byte. -/
theorem notesWrites_foldl_push {vs : List Byte} {s : State} (hs : s.bus = {}) (hlen : vs.length ≤ 256) :
    NotesWrites (pushAddrs s vs) s (vs.foldl State.push s) := by
  induction vs using List.reverseRecOn with
  | nil => exact notesWrites_nil hs
  | append_singleton vs v ih =>
    rw [List.length_append, List.length_singleton] at hlen
    have hnew : ∀ w ∈ (vs.foldl State.push s).bus.writes,
        w.addr ≠ (vs.foldl State.push s).stackAddr (vs.foldl State.push s).sp := by
      intro w hw e
      obtain ⟨k, hk, hlow⟩ := loByte_of_mem_writes_foldl_push hs hw
      rw [e, State.stackAddr, loByte_join, State.foldl_push_sp] at hlow
      bv_omega
    rw [pushAddrs_append_singleton, List.foldl_append]
    exact ((ih (by omega)).write (State.foldl_push_cfg vs s) hnew v).congr ⟨rfl, rfl⟩

/-! ### The notes of an instruction -/

/-- A write of `PS` before and after leaves the notes as they are. -/
theorem NotesWrites.setFlag {as : List Addr} {s t : State} {f g : Flag} {b c : Bool}
    (h : NotesWrites as (s.setFlag f b) t) : NotesWrites as s (t.setFlag g c) :=
  ⟨h.arrivals, h.bytes, h.noted, h.kept⟩

theorem notesWrites_takeException {s : State} (hs : s.bus = {}) (brk : Bool) (ret v : Addr) (lo hi : Draw) :
    NotesWrites (contextAddrs s brk ret) s (s.takeException brk ret v lo hi) := by
  have hpushes := notesWrites_foldl_push (s := s.setFlag .b brk)
    (vs := [hiByte ret, loByte ret, (s.setFlag .b brk).ps]) hs (Nat.le_add_left 3 253)
  have hcontext : NotesWrites (contextAddrs s brk ret) s (s.saveContext brk ret) := by
    rw [State.saveContext_eq_foldl]
    exact hpushes.setFlag
  exact hcontext.congr ⟨rfl, rfl⟩

/-- At the end of an instruction its writes stand on the bus, each with the byte before it and the byte at the end; of
BRK this is said where no source is pending. -/
theorem exec_notesWrites {i : Instr} {s t : State} (h : exec i s = .next t) (hs : s.bus = {})
    (hi : i = .brk → s.firstPending = none) : NotesWrites (storedAddrs i s) s t := by
  by_cases hb : i = .brk
  · subst hb
    obtain rfl : s.takeBreak = t := next_inj ((exec_brk_of_no_pending (hi rfl)).symm.trans h)
    have haddrs : storedAddrs .brk s = contextAddrs s true (s.pc + 2) := by simp [storedAddrs, breakAddrs, hi rfl]
    rw [haddrs]
    exact notesWrites_takeException hs true (s.pc + 2) _ _ _
  · obtain ⟨hn, hm⟩ | ⟨a, v, ha, hm⟩ | ⟨v, w, hvw, hm⟩ := exec_stores i s t hb h
    · rw [hn]
      exact (notesWrites_nil hs).congr hm
    · rw [ha]
      exact ((notesWrites_nil hs).write rfl (by simp [hs]) v).congr hm
    · rw [hvw]
      exact (notesWrites_foldl_push (vs := [v, w]) hs (Nat.le_add_left 2 254)).congr hm

theorem popInput_bus_of_quiet {s : State} (h : s.Quiet) : s.popInput.bus = {} := by
  obtain ⟨hinput, -⟩ := h
  rw [State.popInput_bus, hinput]

/-! ### The byte that BBC and BBS test -/

/-- A byte that holds a request bit and has been written stands in the history with its value before the write
(R353). -/
theorem NotesWrites.lookup {as : List Addr} {s t : State} (h : NotesWrites as s t) {k : IntSource}
    (hk : k ∈ s.cfg.sources) (ha : k.request.addr ∈ as) (hw : writable s.cfg k.request.addr = true) :
    (writtenRequestBytes s.cfg t.bus.writes).lookup k.request.addr.toNat = some (s.peek k.request.addr) := by
  obtain ⟨w, hmem, haddr⟩ := h.noted _ ha hw
  have hcell : (w.addr.toNat, w.old) ∈ writtenRequestBytes s.cfg t.bus.writes := by
    refine List.mem_map.2 ⟨w, List.mem_filter.2 ⟨hmem, List.any_eq_true.2 ⟨k, hk, ?_⟩⟩, rfl⟩
    rw [haddr, beq_self_eq_true]
  cases hl : (writtenRequestBytes s.cfg t.bus.writes).lookup k.request.addr.toNat with
  | none =>
    have hnone := List.lookup_eq_none_iff.1 hl _ hcell
    simp [haddr] at hnone
  | some old =>
    obtain ⟨before, after, hlist, -⟩ := List.lookup_eq_some_iff.1 hl
    have hold : (k.request.addr.toNat, old) ∈ writtenRequestBytes s.cfg t.bus.writes := by simp [hlist]
    obtain ⟨x, hx, e⟩ := List.mem_map.1 hold
    obtain ⟨hx, -⟩ := List.mem_filter.1 hx
    obtain ⟨he, rfl⟩ := Prod.mk.inj e
    obtain ⟨hxold, -⟩ := h.bytes x hx
    rw [hxold, BitVec.eq_of_toNat_eq he]

/-- The tested byte is the one before the write, or the one read now (R353). -/
theorem State.testedByte_of_lookup {s : State} {zz old : Byte}
    (h : s.prev.requestBytes.lookup (zpAddr zz).toNat = some old) :
    s.testedByte zz = old ∨ s.testedByte zz = s.read .operand (zpAddr zz) := by
  rw [State.testedByte, h]
  show (if anyBit s.draws .staleRequest then old else _) = old ∨ _
  split
  · exact .inl rfl
  · exact .inr rfl

theorem exec_bitBranch (s : State) (b : Nat) (zz rr : Byte) (want : Bool) :
    exec (if want then .bbsZp b zz rr else .bbcZp b zz rr) s = .next (s.branchBitMem b zz rr want) := by
  cases want <;> rfl

/-- Settles O42: the write stands in the history with the byte before it, and the tested byte is that one or the one
read now. -/
theorem staleRequestBranches : Obligations.StaleRequestBranches := by
  unfold Obligations.StaleRequestBranches
  intro s t v i k zz rr b want hq hr hf hbrk hstep hprev hk hzz hstored hw _
  obtain ⟨u, hu, rfl⟩ := step_next_of_quiet hq hr hf hstep
  have hnotes := exec_notesWrites hu (popInput_bus_of_quiet hq) hbrk
  have hzp : k.request.addr = zpAddr zz := (eq_zpAddr_iff _ _).2 hzz
  have hlookup : v.prev.requestBytes.lookup (zpAddr zz).toNat = some (s.peek k.request.addr) := by
    rw [hprev, State.retire_prev, prevAfter_of_no_entry (s := s.popInput) hbrk, ← hzp]
    exact hnotes.lookup hk hstored hw
  refine ⟨_, exec_bitBranch v b zz rr want, ?_⟩
  rw [State.branchBitMem, hzp]
  obtain e | e := State.testedByte_of_lookup hlookup
  · left
    rw [e, hzp]
  · right
    rw [e]

/-! ### The race of one write -/

theorem State.enterInterrupt_flag (s : State) (k : IntSource) (f : Flag) :
    (s.enterInterrupt k).flag f =
      ((s.setBitAt k.request false).takeException false s.pc k.vector .irqVectorLo .irqVectorHi).flag f := rfl

/-- BRK leaves I set, whatever is pending (R281, R319). -/
theorem exec_brk_flag_i {s t : State} (h : exec .brk s = .next t) : t.flag .i = true := by
  have htake (r : State) (brk : Bool) (ret v : Addr) (lo hi : Draw) :
      (r.takeException brk ret v lo hi).flag .i = true := by
    simp [State.takeException_flag]
  cases hp : s.firstPending with
  | none =>
    obtain rfl := next_inj ((exec_brk_of_no_pending hp).symm.trans h)
    exact htake ..
  | some k =>
    obtain rfl := next_inj ((exec_brk_of_pending hp).symm.trans h)
    unfold State.takeBreakPending
    split
    · exact htake ..
    · rw [State.setBitAt_flag]
      exact htake ..
    · rw [State.enterInterrupt_flag]
      exact htake ..

/-- A write that took a source from request 1 and enable 0 to request 0 and enable 1 is found on the bus (R323). -/
theorem NotesWrites.mem_racedSources {as : List Addr} {s t : State} (h : NotesWrites as s t) {k : IntSource}
    (hk : k ∈ s.cfg.sources) (haddr : k.request.addr = k.enable.addr) (hi : s.flag .i = false)
    (hr : s.bitAt k.request = true) (he : s.bitAt k.enable = false) (hr' : t.bitAt k.request = false)
    (he' : t.bitAt k.enable = true) : k ∈ racedSources s t.bus.writes := by
  obtain ⟨w, hw, hwa⟩ : ∃ w ∈ t.bus.writes, w.addr = k.request.addr := by
    by_contra hnone
    have hkept : t.peek k.request.addr = s.peek k.request.addr :=
      h.kept _ fun w hw e => hnone ⟨w, hw, e⟩
    rw [State.bitAt, hkept, ← State.bitAt, hr] at hr'
    cases hr'
  obtain ⟨hold, hnew⟩ := h.bytes w hw
  rw [hwa] at hold hnew
  unfold State.bitAt at hr he hr' he'
  rw [← haddr] at he he'
  have hraced : racedBy k w = true := by
    rw [racedBy, hwa, ← haddr, hold, hnew, hr, he, hr', he', beq_self_eq_true]
    rfl
  exact List.mem_filter.2 ⟨hk, by simpa [hi] using ⟨w, hw, hraced⟩⟩

/-- A raced source that the devices let through is accepted, if none before it is acceptable (R323). -/
theorem accepted_of_raced {s : State} {k : IntSource} {n : Nat} (hk : s.cfg.sources[n]? = some k)
    (hraced : k ∈ s.prev.raced) (hi : s.flag .i = false)
    (hbefore : ∀ m < n, ∀ j : IntSource, s.cfg.sources[m]? = some j → s.isAcceptable j = false) :
    s.accepted { racedTaken := [k] } = some k := by
  have hrequests : s.requesting { racedTaken := [k] } k = true :=
    (s.requesting_iff _ k).2 ⟨hi, .inr ⟨List.mem_singleton_self k, hraced⟩⟩
  rw [s.accepted_of_not_delayed rfl]
  cases hfind : s.cfg.sources.find? (s.requesting { racedTaken := [k] }) with
  | none => exact absurd hrequests (List.find?_eq_none.1 hfind k (List.mem_of_getElem? hk))
  | some j =>
    obtain ⟨hj, m, hm, hget, hfirst⟩ := List.find?_eq_some_iff_getElem.1 hfind
    obtain ⟨hn, hgetk⟩ := List.getElem?_eq_some_iff.1 hk
    obtain hlt | rfl | hgt := Nat.lt_trichotomy m n
    · have hnot := hbefore m hlt j (List.getElem?_eq_some_iff.2 ⟨hm, hget⟩)
      have hother : j = k := by
        simp only [State.requesting, hnot, Bool.false_or, Bool.and_eq_true] at hj
        obtain ⟨⟨htaken, -⟩, -⟩ := hj
        simpa using htaken
      rw [hother]
    · rw [← hget, hgetk]
    · have hnot := hfirst n hgt
      simp [hgetk, hrequests] at hnot

/-- A source without a request is not accepted unless the devices let it through. -/
theorem not_accepted_of_not_requested {s : State} {k : IntSource} (h : s.bitAt k.request = false) :
    s.accepted {} ≠ some k := by
  intro hk
  rw [s.accepted_of_not_delayed rfl] at hk
  obtain ⟨-, ⟨hr, -⟩ | ⟨hr, -⟩⟩ := (s.requesting_iff {} k).1 (List.find?_some hk)
  · simp [h] at hr
  · cases hr

/-- Settles O55: the write stands on the bus and so leaves the source in the history, from which the next boundary's
input takes it or does not. -/
theorem racedWriteAdmitsBoth : Obligations.RacedWriteAdmitsBoth := by
  unfold Obligations.RacedWriteAdmitsBoth
  intro s t v i k n hq hr hf hstep hk haddr hi hti hreq hen htreq hten hbefore hv
  obtain ⟨u, hu, rfl⟩ := step_next_of_quiet hq hr hf hstep
  have hne : i ≠ .brk := by
    rintro rfl
    rw [State.retire_flag, exec_brk_flag_i hu] at hti
    cases hti
  have hnotes := exec_notesWrites hu (popInput_bus_of_quiet hq) (absurd · hne)
  have hbit (l : BitLoc) : (s.popInput.retire i u).bitAt l = u.bitAt l := by
    rw [State.bitAt, State.retire_peek, State.settle_of_no_arrival u hnotes.arrivals]
    rfl
  have hraced : k ∈ (s.popInput.retire i u).prev.raced := by
    rw [State.retire_prev, prevAfter_of_no_entry (s := s.popInput) (absurd · hne)]
    rw [hbit] at htreq hten
    exact hnotes.mem_racedSources (List.mem_of_getElem? hk) haddr hi hreq hen htreq hten
  obtain ⟨-, hcfg, -⟩ := exec_sameHidden i s.popInput u hu
  have haccepted : (s.popInput.retire i u).accepted { racedTaken := [k] } = some k :=
    accepted_of_raced (by rwa [State.retire_cfg, hcfg]) hraced hti (by rwa [State.retire_cfg, hcfg])
  refine ⟨haccepted, not_accepted_of_not_requested htreq, ?_⟩
  subst hv
  exact step_of_accepted rfl haccepted

end Sys2Proof.Machine
